-- ==== Sys2Proof/Word.lean ====
section
/-! DEFINITION. The words of the hardware: bytes, pin states, frames, and one encoded word in each of the four formats
of spec/opcode_table.json. -/

namespace Sys2Proof

/-- One byte of a stream or a frame (`20_memory.md` R30, R31). -/
abbrev Byte := BitVec 8

/-- A pin state `{A, B}`: bit 1 is phase A, bit 0 phase B, 1 = high (`30_encoding.md` R45). -/
abbrev PinState := BitVec 2

/-- A frame: bytes numbered from 0, byte 0 sent first (`20_memory.md` R31). -/
abbrev Frame := List Byte

/-- One encoded word, in the format spec/opcode_table.json gives its row. -/
inductive TableWord where
  /-- TRACE40: one operation or event of a trace (`30_encoding.md` R51). -/
  | trace40 (w : BitVec 40)
  /-- TT_INDEX: an address of the transition table ROM, `{previous, current}` (`30_encoding.md` R47). -/
  | ttIndex (i : BitVec 4)
  /-- RX_BYTE: one byte of the inbound stream (`30_encoding.md` R56). -/
  | rxByte (b : Byte)
  /-- TX_FRAME: one outbound frame (`30_encoding.md` R52, R53). -/
  | txFrame (bs : Frame)
  deriving DecidableEq, Repr

end Sys2Proof
end

