-- ==== Sys2Proof/Config.lean ====
section
/-! DEFINITION. The implementation parameters of `00_scope.md` section 5 as a configuration record, what makes one
admissible, and the configuration of the one machine `State.reset` describes. -/

namespace Sys2Proof

/-- The six fixed leading bytes of the volume command frame (`30_encoding.md` R53). -/
structure CommandHeader where
  f0 : Byte
  f1 : Byte
  f2 : Byte
  p0 : Byte
  p1 : Byte
  cc : Byte
  deriving DecidableEq, Repr, Inhabited

/-- The levels of the three pins, true = 1 = high (`10_state.md` R21). -/
structure Pins where
  a   : Bool
  b   : Bool
  btn : Bool
  deriving DecidableEq, Repr, Inhabited

/-- The parameters the document leaves open (`00_scope.md` section 5, R5). READY_MARKER and DELTA_WIDTH, whose values the
spec fixes, are not here: `readyMarker` (Machine/Wire.lean) and the operand of `Instr.pdVolumeDelta`. -/
structure Config where
  /-- STEPS: the volume index ranges over `[0, 2*STEPS]`. -/
  steps      : Nat
  /-- ACC_WIDTH: `none` is INF, the unbounded accumulator (`10_state.md` R11). -/
  accWidth   : Option Nat
  /-- PREV_RESET. -/
  prevReset  : PinState
  /-- INDEX_RESET. -/
  indexReset : Byte
  /-- HS_INIT[0..6] (`30_encoding.md` R52). -/
  hsInit     : Vector Byte 7
  /-- HS_FOLLOWUP: a constant no operation reads (`30_encoding.md` R58). -/
  hsFollowup : Frame
  /-- CMD_HDR[0..5]. -/
  cmdHdr     : CommandHeader
  /-- BLOB_MARKER, the byte value X of `30_encoding.md` R56. -/
  blobMarker : Byte
  deriving DecidableEq, Repr

/-- The constraints of `00_scope.md` section 5 and R4: `1 <= STEPS <= 127`, `ACC_WIDTH >= 2` or INF,
`INDEX_RESET <= 2*STEPS`. -/
abbrev Config.Ok (c : Config) : Prop :=
  1 ≤ c.steps ∧ c.steps ≤ 127 ∧ (∀ w ∈ c.accWidth, 2 ≤ w) ∧ c.indexReset.toNat ≤ 2 * c.steps

/-- STEPS less one, a free value: the document gives only "a fixed calibration constant" (DESIGN CHOICE, log entry 8). -/
opaque Config.openSteps : Fin 127

/-- HS_INIT, a free value: "fixed literal values" the document withholds (DESIGN CHOICE, log entry 8). -/
opaque Config.openHsInit : Vector Byte 7

/-- HS_FOLLOWUP, a free value (DESIGN CHOICE, log entry 8). -/
opaque Config.openHsFollowup : Frame

/-- CMD_HDR, a free value (DESIGN CHOICE, log entry 8). -/
opaque Config.openCmdHdr : CommandHeader

/-- BLOB_MARKER, a free value (DESIGN CHOICE, log entry 8). -/
opaque Config.openBlobMarker : Byte

/-- The pin levels at power-on, a free value: "whatever the physical encoder and button hold" (`10_state.md` R23;
DESIGN CHOICE, log entry 12). -/
opaque Config.openPins : Pins

/-- The configuration of the machine `State.reset`: the withheld literals are free values, and where the spec names a
default or a recommendation it is taken (DESIGN CHOICE: ACC_WIDTH 32 log entry 9, PREV_RESET 0b00 log entry 10,
INDEX_RESET = STEPS log entry 11). No statement rests on these values. -/
def Config.hardware : Config where
  steps      := Config.openSteps.val + 1
  accWidth   := some 32
  prevReset  := 0b00#2
  indexReset := BitVec.ofNat 8 (Config.openSteps.val + 1)
  hsInit     := Config.openHsInit
  hsFollowup := Config.openHsFollowup
  cmdHdr     := Config.openCmdHdr
  blobMarker := Config.openBlobMarker

end Sys2Proof
end

