-- ==== Sys2Proof/Machine/Wire.lean ====
section
/-! DEFINITION. The wire: the ready marker, the outbound frames and the checksum (`30_encoding.md` R52 to R56). -/

namespace Sys2Proof.Machine

/-- READY_MARKER, the byte value Y: 0xFB, forced by the document's stream scenario (`30_encoding.md` R56; UNVERIFIED in the
spec's own words, an unaudited literal, log entry 19). -/
def readyMarker : Byte := 0xFB#8

/-- `sum8`: the sum of the bytes, each taken unsigned, modulo 256 (`00_scope.md` section 6, `30_encoding.md` R54). -/
def sum8 (bs : Frame) : Byte := BitVec.ofNat 8 ((bs.map BitVec.toNat).sum % 256)

/-- CMD_HDR as bytes, in the order F0 F1 F2 P0 P1 CC (`30_encoding.md` R53, `90_conflicts.md` C5). -/
def headerBytes (h : CommandHeader) : Frame := [h.f0, h.f1, h.f2, h.p0, h.p1, h.cc]

/-- The handshake initiation frame: HS_INIT in index order (`30_encoding.md` R52). -/
def handshakeFrame (c : Config) : Frame := c.hsInit.toList

/-- `CmdFrame(i) = CMD_HDR ++ [i] ++ [sum8(CMD_HDR ++ [i])]` (`30_encoding.md` R53). -/
def commandFrame (c : Config) (idx : Byte) : Frame :=
  headerBytes c.cmdHdr ++ [idx] ++ [sum8 (headerBytes c.cmdHdr ++ [idx])]

end Sys2Proof.Machine
end

