-- ==== Sys2Proof/Syntax.lean ====
section
/-! DEFINITION. The instruction type: one constructor per row of spec/opcode_table.json. The first eleven are the operations
and events of `00_scope.md` R2; the others are the item rows (table entries, inbound byte classes, outbound frames), which the
spec calls encodings rather than operations: each stands for a sequence of the eleven (DESIGN CHOICE, log entries 3 to 5). -/

namespace Sys2Proof

inductive Instr where
  /-- QD_PHASE_EDGE(s): the phase-pin handler with the pin state it sampled (`40_quadrature_decoder.md` R65). -/
  | qdPhaseEdge (sample : PinState)
  /-- QD_BUTTON_EDGE(level): the button-pin handler with the level it sampled, true = high (R66). -/
  | qdButtonEdge (level : Bool)
  /-- QD_DRAIN: read and zero the accumulated delta (R67). -/
  | qdDrain
  /-- QD_READ_BUTTON (R68). -/
  | qdReadButton
  /-- PD_BEGIN (`41_protocol_driver.md` R85). -/
  | pdBegin
  /-- PD_POLL (R86). -/
  | pdPoll
  /-- PD_IS_READY (R88). -/
  | pdIsReady
  /-- PD_VOLUME_DELTA(delta): DELTA_WIDTH = 32 bits, two's complement (R89, `30_encoding.md` R51). -/
  | pdVolumeDelta (delta : BitVec 32)
  /-- PD_READ_INDEX (R90). -/
  | pdReadIndex
  /-- ENV_RX_ARRIVE(b): the DSP delivers one byte (R100). -/
  | envRxArrive (b : Byte)
  /-- ENV_RESET: power-on (`70_reset_and_hazards.md` R135). -/
  | envReset
  /-- T_00_00: the ROM entry at row 00, column 00 (`30_encoding.md` R48). -/
  | tt0000
  /-- T_00_01: the ROM entry at row 00, column 01 (`30_encoding.md` R48). -/
  | tt0001
  /-- T_00_10: the ROM entry at row 00, column 10 (`30_encoding.md` R48). -/
  | tt0010
  /-- T_00_11: the ROM entry at row 00, column 11 (`30_encoding.md` R48). -/
  | tt0011
  /-- T_01_00: the ROM entry at row 01, column 00 (`30_encoding.md` R48). -/
  | tt0100
  /-- T_01_01: the ROM entry at row 01, column 01 (`30_encoding.md` R48). -/
  | tt0101
  /-- T_01_10: the ROM entry at row 01, column 10 (`30_encoding.md` R48). -/
  | tt0110
  /-- T_01_11: the ROM entry at row 01, column 11 (`30_encoding.md` R48). -/
  | tt0111
  /-- T_10_00: the ROM entry at row 10, column 00 (`30_encoding.md` R48). -/
  | tt1000
  /-- T_10_01: the ROM entry at row 10, column 01 (`30_encoding.md` R48). -/
  | tt1001
  /-- T_10_10: the ROM entry at row 10, column 10 (`30_encoding.md` R48). -/
  | tt1010
  /-- T_10_11: the ROM entry at row 10, column 11 (`30_encoding.md` R48). -/
  | tt1011
  /-- T_11_00: the ROM entry at row 11, column 00 (`30_encoding.md` R48). -/
  | tt1100
  /-- T_11_01: the ROM entry at row 11, column 01 (`30_encoding.md` R48). -/
  | tt1101
  /-- T_11_10: the ROM entry at row 11, column 10 (`30_encoding.md` R48). -/
  | tt1110
  /-- T_11_11: the ROM entry at row 11, column 11 (`30_encoding.md` R48). -/
  | tt1111
  /-- RX_READY_MARKER: the inbound byte READY_MARKER (`30_encoding.md` R56, `41_protocol_driver.md` R87). -/
  | rxReadyMarker
  /-- RX_BLOB_MARKER: the inbound byte BLOB_MARKER, where it is not also READY_MARKER (log entry 14). -/
  | rxBlobMarker
  /-- RX_OTHER: an inbound byte that is neither marker. -/
  | rxOther (b : Byte)
  /-- TX_HS_INIT: the handshake initiation frame (`30_encoding.md` R52). -/
  | txHsInit
  /-- TX_VOLUME_CMD: the volume command frame with index byte `idx` (`30_encoding.md` R53). -/
  | txVolumeCmd (idx : Byte)
  deriving DecidableEq, Repr

end Sys2Proof
end

