-- ==== Sys2Proof/WellFormed.lean ====
section
/-! DEFINITION. Which terms of Instr stand for a word of their own row, under a configuration. -/

namespace Sys2Proof

/-- RX_BLOB_MARKER is a word of its own only where BLOB_MARKER differs from READY_MARKER (log entry 14); RX_OTHER is the
default row (`30_encoding.md` R56); TX_VOLUME_CMD carries an index in `[0, 2*STEPS]` (`30_encoding.md` R53, R57). Every other
operand takes every value of its type. -/
def Instr.wellFormed (c : Config) : Instr → Bool
  | .rxBlobMarker    => c.blobMarker != Machine.readyMarker
  | .rxOther b       => b != Machine.readyMarker && b != c.blobMarker
  | .txVolumeCmd idx => decide (idx.toNat ≤ 2 * c.steps)
  | .qdPhaseEdge _ | .qdButtonEdge _ | .qdDrain | .qdReadButton
  | .pdBegin | .pdPoll | .pdIsReady | .pdVolumeDelta _ | .pdReadIndex
  | .envRxArrive _ | .envReset
  | .tt0000 | .tt0001 | .tt0010 | .tt0011
  | .tt0100 | .tt0101 | .tt0110 | .tt0111
  | .tt1000 | .tt1001 | .tt1010 | .tt1011
  | .tt1100 | .tt1101 | .tt1110 | .tt1111
  | .rxReadyMarker | .txHsInit => true

end Sys2Proof
end

