-- ==== Sys2Proof/Decode.lean ====
section
/-! DEFINITION. The decoder, total on every word, and after it the encoder, both written from `30_encoding.md` R47, R50, R51,
R52, R53, R56 and spec/opcode_table.json. -/

namespace Sys2Proof

/-- A TRACE40 word: `word[39:36] = 0`, `word[35:32] = op`, `word[31:0] = arg`; every bit of `arg` that the operation does not
use is zero; selectors 0x9 to 0xD are reserved (`30_encoding.md` R50, R51, R57). -/
def decodeTrace (w : BitVec 40) : Option Instr :=
  let arg := w.extractLsb' 0 32
  if w.extractLsb' 36 4 ≠ 0#4 then none
  else match (w.extractLsb' 32 4).toNat with
    | 0x0 => if arg.extractLsb' 2 30 = 0#30 then some (.qdPhaseEdge (arg.extractLsb' 0 2)) else none
    | 0x1 => if arg.extractLsb' 1 31 = 0#31 then some (.qdButtonEdge (arg.getLsbD 0)) else none
    | 0x2 => if arg = 0#32 then some .qdDrain else none
    | 0x3 => if arg = 0#32 then some .qdReadButton else none
    | 0x4 => if arg = 0#32 then some .pdBegin else none
    | 0x5 => if arg = 0#32 then some .pdPoll else none
    | 0x6 => if arg = 0#32 then some .pdIsReady else none
    | 0x7 => some (.pdVolumeDelta arg)
    | 0x8 => if arg = 0#32 then some .pdReadIndex else none
    | 0xE => if arg.extractLsb' 8 24 = 0#24 then some (.envRxArrive (arg.extractLsb' 0 8)) else none
    | 0xF => if arg = 0#32 then some .envReset else none
    | _   => none

/-- A TT_INDEX word `{previous, current}`: the row of its table entry (`30_encoding.md` R47, R48). -/
def decodeIndex (i : BitVec 4) : Instr :=
  match i.toNat with
  | 0  => .tt0000
  | 1  => .tt0001
  | 2  => .tt0010
  | 3  => .tt0011
  | 4  => .tt0100
  | 5  => .tt0101
  | 6  => .tt0110
  | 7  => .tt0111
  | 8  => .tt1000
  | 9  => .tt1001
  | 10 => .tt1010
  | 11 => .tt1011
  | 12 => .tt1100
  | 13 => .tt1101
  | 14 => .tt1110
  | _  => .tt1111

/-- An inbound byte's class (`30_encoding.md` R56). A byte equal to both markers is given to the ready row (log entry 14). -/
def decodeByte (c : Config) (b : Byte) : Instr :=
  if b = Machine.readyMarker then .rxReadyMarker
  else if b = c.blobMarker then .rxBlobMarker
  else .rxOther b

/-- An outbound frame: HS_INIT, or `CmdFrame(i)` for its byte 6 with a legal index (`30_encoding.md` R52, R53, R57). -/
def decodeFrame (c : Config) (bs : Frame) : Option Instr :=
  if bs = Machine.handshakeFrame c then some .txHsInit
  else
    let idx := bs.getD 6 0#8
    if bs = Machine.commandFrame c idx ∧ idx.toNat ≤ 2 * c.steps then some (.txVolumeCmd idx) else none

/-- The decoder. `none` is the harness's refusal of the word (`30_encoding.md` R57). -/
def decode (c : Config) : TableWord → Option Instr
  | .trace40 w  => decodeTrace w
  | .ttIndex i  => some (decodeIndex i)
  | .rxByte b   => some (decodeByte c b)
  | .txFrame bs => decodeFrame c bs

/-- The TRACE40 word with selector `op` and argument `arg` (`30_encoding.md` R51). -/
def traceWord (op : BitVec 4) (arg : BitVec 32) : TableWord := .trace40 ((0#4 ++ op) ++ arg)

/-- The word of a well-formed instruction. -/
def encode (c : Config) : Instr → TableWord
  | .qdPhaseEdge sample  => traceWord 0x0#4 (0#30 ++ sample)
  | .qdButtonEdge level  => traceWord 0x1#4 (0#31 ++ BitVec.ofBool level)
  | .qdDrain             => traceWord 0x2#4 0#32
  | .qdReadButton        => traceWord 0x3#4 0#32
  | .pdBegin             => traceWord 0x4#4 0#32
  | .pdPoll              => traceWord 0x5#4 0#32
  | .pdIsReady           => traceWord 0x6#4 0#32
  | .pdVolumeDelta delta => traceWord 0x7#4 delta
  | .pdReadIndex         => traceWord 0x8#4 0#32
  | .envRxArrive b       => traceWord 0xE#4 (0#24 ++ b)
  | .envReset            => traceWord 0xF#4 0#32
  | .tt0000 => .ttIndex 0b0000#4
  | .tt0001 => .ttIndex 0b0001#4
  | .tt0010 => .ttIndex 0b0010#4
  | .tt0011 => .ttIndex 0b0011#4
  | .tt0100 => .ttIndex 0b0100#4
  | .tt0101 => .ttIndex 0b0101#4
  | .tt0110 => .ttIndex 0b0110#4
  | .tt0111 => .ttIndex 0b0111#4
  | .tt1000 => .ttIndex 0b1000#4
  | .tt1001 => .ttIndex 0b1001#4
  | .tt1010 => .ttIndex 0b1010#4
  | .tt1011 => .ttIndex 0b1011#4
  | .tt1100 => .ttIndex 0b1100#4
  | .tt1101 => .ttIndex 0b1101#4
  | .tt1110 => .ttIndex 0b1110#4
  | .tt1111 => .ttIndex 0b1111#4
  | .rxReadyMarker   => .rxByte Machine.readyMarker
  | .rxBlobMarker    => .rxByte c.blobMarker
  | .rxOther b       => .rxByte b
  | .txHsInit        => .txFrame (Machine.handshakeFrame c)
  | .txVolumeCmd idx => .txFrame (Machine.commandFrame c idx)

/-- The first `n` bytes of a number, the least significant byte first: byte `k` of a frame is bits `8k+7 .. 8k`. -/
def bytesOf : Nat → Nat → Frame
  | 0, _     => []
  | n + 1, w => BitVec.ofNat 8 (w % 256) :: bytesOf n (w / 256)

/-- The word of `nbits` bits numbered as spec/opcode_table.json numbers them. The table's widths tell the formats apart, but
a TT_INDEX row in whole bytes is as wide as an RX_BYTE row: a byte below 16 is read as the table index (DESIGN CHOICE, log
entry 6). The decoder itself never meets this, since a TableWord carries its format. -/
def TableWord.ofBits (nbits w : Nat) : TableWord :=
  if w < 2 ^ nbits then
    match nbits with
    | 40 => .trace40 (BitVec.ofNat 40 w)
    | 4  => .ttIndex (BitVec.ofNat 4 w)
    | 8  => if w < 16 then .ttIndex (BitVec.ofNat 4 w) else .rxByte (BitVec.ofNat 8 w)
    | n  => .txFrame (bytesOf (n / 8) w)
  else .txFrame []

/-- The instruction the decoder reads from a word of the table, under the configuration of `State.reset`. -/
def decodeTableWord (nbits w : Nat) : Option Instr :=
  decode Config.hardware (TableWord.ofBits nbits w)

end Sys2Proof
end

