-- ==== Sys2Proof/Machine/Operands.lean ====
section
/-! DEFINITION. Operand forms and the arithmetic of `00_scope.md` section 6: everything is computed on Int and narrowed
explicitly at the end. -/

namespace Sys2Proof.Machine

/-- The level of phase A in a pin state, `s[1]` (`30_encoding.md` R45). -/
def phaseA (s : PinState) : Bool := s.getLsbD 1

/-- The level of phase B in a pin state, `s[0]` (`30_encoding.md` R45). -/
def phaseB (s : PinState) : Bool := s.getLsbD 0

/-- The pin state `{a, b}` (`30_encoding.md` R45). -/
def pinState (a b : Bool) : PinState := BitVec.ofBool a ++ BitVec.ofBool b

/-- The click count of PD_VOLUME_DELTA: `sext_32(arg)` (`30_encoding.md` R51). -/
def clickCount (delta : BitVec 32) : Int := delta.toInt

/-- `clamp(v, lo, hi)` (`00_scope.md` section 6). -/
def clamp (v lo hi : Int) : Int := if v < lo then lo else if v > hi then hi else v

/-- ACC_MIN for a finite width. -/
def accMin (w : Nat) : Int := -((2 ^ (w - 1) : Nat) : Int)

/-- ACC_MAX for a finite width. -/
def accMax (w : Nat) : Int := ((2 ^ (w - 1) : Nat) : Int) - 1

/-- `sat_W`, and the identity for INF (`00_scope.md` section 6, `90_conflicts.md` C1). -/
def sat : Option Nat → Int → Int
  | none, v   => v
  | some w, v => clamp v (accMin w) (accMax w)

/-- The new volume index `clamp(i + delta, 0, 2*STEPS)`, on unbounded integers (`41_protocol_driver.md` R89). -/
def clampedIndex (steps : Nat) (i : Byte) (delta : Int) : Int := clamp ((i.toNat : Int) + delta) 0 (2 * (steps : Int))

/-- A legal index as the one byte the register and the frame hold (`30_encoding.md` R55, `00_scope.md` R4). -/
def indexByte (i : Int) : Byte := BitVec.ofNat 8 i.toNat

end Sys2Proof.Machine
end

