-- ==== Sys2Proof/Machine/State.lean ====
section
/-! DEFINITION. The state: the records QD, PD and ENV of `10_state.md`, the configuration they run under, and the two fields of
the model's own (`trace`, `returns`). Plain data. -/

namespace Sys2Proof.Machine

/-- Why the model stops with a fault. Fault(TransportUnavailable) is not here: the spec says what state it leaves and how that
state is left, so it is `FaultKind` in `Env.fault` and a next state (`60_exceptions.md` R111). -/
inductive Fault where
  /-- `RxRead` with nothing available ("only valid when available", `93_implementation_defined.md` U14). Raised by the poll
  loop only; safe; no operation reaches it (`20_memory.md` R33). -/
  | rxReadEmpty
  deriving DecidableEq, Repr

/-- Why the model has no step. -/
inductive Refusal where
  /-- The instruction has no meaning yet; safe. Raised by no arm of `exec`: every constructor has its meaning. -/
  | notModelled (mnemonic : String)
  /-- The word is in no row: a reserved selector, a must-be-zero bit set, a frame the driver never builds. Raised by `step`;
  "the harness refuses the word" (`30_encoding.md` R57); safe. -/
  | malformedWord
  deriving DecidableEq, Repr

/-- The kinds of the machine's own fault (`60_exceptions.md` R110, R111). -/
inductive FaultKind where
  | transportUnavailable
  deriving DecidableEq, Repr

/-- The diagnostic events (`60_exceptions.md` R127). -/
inductive LogEvent where
  | blobBegin
  | dropNotReady (delta : Int)
  deriving DecidableEq, Repr

/-- The result of one operation, tagged with the operation that gives it (`30_encoding.md` R62): the four that return a
value. -/
inductive Result where
  | delta (v : Int)
  | button (v : Bool)
  | ready (v : Bool)
  | index (v : Nat)
  deriving DecidableEq, Repr

/-- Unit QD (`10_state.md` R10, R11, R12). -/
structure Qd where
  previousState    : PinState
  accumulatedDelta : Int
  buttonState      : Bool
  deriving DecidableEq, Repr

/-- Unit PD (`10_state.md` R14, R15, R16). -/
structure Pd where
  transportAttached : Bool
  linkReady         : Bool
  volumeIndex       : Byte
  deriving DecidableEq, Repr

/-- The platform state the block reads and writes (`10_state.md` R21). -/
structure Env where
  pins  : Pins
  rx    : List Byte
  tx    : List Frame
  log   : List LogEvent
  fault : Option FaultKind
  deriving DecidableEq, Repr

/-- The machine. `cfg` is read-only (`00_scope.md` R5). `trace` holds the words not yet executed and `returns` the results
delivered so far, oldest first: both are the model's own (log entries 1 and 7). -/
structure State where
  cfg     : Config
  qd      : Qd
  pd      : Pd
  env     : Env
  trace   : List TableWord
  returns : List Result
  deriving DecidableEq, Repr

/-- The machine right after reset under a configuration, with the pins at given levels (`10_state.md` R23). -/
def State.resetOf (c : Config) (p : Pins) : State where
  cfg := c
  qd  := { previousState := c.prevReset, accumulatedDelta := 0, buttonState := false }
  pd  := { transportAttached := false, linkReady := false, volumeIndex := c.indexReset }
  env := { pins := p, rx := [], tx := [], log := [], fault := none }
  trace   := []
  returns := []

/-- The machine right after reset. -/
def State.reset : State := State.resetOf Config.hardware Config.openPins

end Sys2Proof.Machine
end

