-- ==== Sys2Proof/Machine/Ops.lean ====
section
/-! DEFINITION. The named operations over the state: one update per field, the platform primitives of `00_scope.md` section 7,
the halt check, raising the machine's fault and leaving it by reset, and fetching the next word of the trace. -/

namespace Sys2Proof.Machine

def State.setPreviousState (s : State) (v : PinState) : State := { s with qd := { s.qd with previousState := v } }
def State.setAccumulatedDelta (s : State) (v : Int) : State := { s with qd := { s.qd with accumulatedDelta := v } }
def State.setButtonState (s : State) (v : Bool) : State := { s with qd := { s.qd with buttonState := v } }
def State.setTransportAttached (s : State) (v : Bool) : State := { s with pd := { s.pd with transportAttached := v } }
def State.setLinkReady (s : State) (v : Bool) : State := { s with pd := { s.pd with linkReady := v } }
def State.setVolumeIndex (s : State) (v : Byte) : State := { s with pd := { s.pd with volumeIndex := v } }
def State.setPins (s : State) (v : Pins) : State := { s with env := { s.env with pins := v } }
def State.setRx (s : State) (v : List Byte) : State := { s with env := { s.env with rx := v } }
def State.setTx (s : State) (v : List Frame) : State := { s with env := { s.env with tx := v } }
def State.setLog (s : State) (v : List LogEvent) : State := { s with env := { s.env with log := v } }
def State.setFault (s : State) (v : Option FaultKind) : State := { s with env := { s.env with fault := v } }
def State.setTrace (s : State) (v : List TableWord) : State := { s with trace := v }
def State.setReturns (s : State) (v : List Result) : State := { s with returns := v }

/-- The machine is halted: `ENV.fault` is not `none` (`60_exceptions.md` R111). -/
abbrev State.Halted (s : State) : Prop := s.env.fault ≠ none

/-- The halt check every operation makes first: a halted machine's whole state stays unchanged and nothing is returned
(`60_exceptions.md` R111, R123). -/
def whenRunning (s : State) (k : Host.Outcome State Fault Refusal) : Host.Outcome State Fault Refusal :=
  if s.env.fault = none then k else .next s

/-- `raise Fault(k)`: taking the machine's one exception. It records the kind and changes nothing else; there is no saved
pc, status or vector (`60_exceptions.md` R111, R116, R130). -/
def raiseFault (k : FaultKind) (s : State) : Host.Outcome State Fault Refusal := .next (s.setFault (some k))

/-- The return from the halted state, and the reset of a running machine: every field at its reset value; the ROMs, the
pins, the trace and the delivered results stay (`70_reset_and_hazards.md` R135, R136; log entry 12). -/
def powerOn (s : State) : State where
  cfg := s.cfg
  qd  := { previousState := s.cfg.prevReset, accumulatedDelta := 0, buttonState := false }
  pd  := { transportAttached := false, linkReady := false, volumeIndex := s.cfg.indexReset }
  env := { pins := s.env.pins, rx := [], tx := [], log := [], fault := none }
  trace   := s.trace
  returns := s.returns

/-- The transport precondition: unattached, the fault is raised and nothing else happens (`60_exceptions.md` R110 (a)). -/
def requireTransport (s : State) (k : Host.Outcome State Fault Refusal) : Host.Outcome State Fault Refusal :=
  if s.pd.transportAttached then k else raiseFault .transportUnavailable s

/-- `RxAvail()`: the number of bytes available (`60_exceptions.md` R126). -/
def rxAvail (s : State) : Nat := s.env.rx.length

/-- `RxRead()`: removes and returns the head of `ENV.rx`; `none` where nothing is available (`60_exceptions.md` R126). -/
def rxRead (s : State) : Option (Byte × State) :=
  match s.env.rx with
  | []      => none
  | b :: bs => some (b, s.setRx bs)

/-- `TxWrite(bs)`: appends one whole frame (`20_memory.md` R32, R44). -/
def txWrite (bs : Frame) (s : State) : State := s.setTx (s.env.tx ++ [bs])

/-- `Log(e)` (`60_exceptions.md` R127). -/
def logEvent (e : LogEvent) (s : State) : State := s.setLog (s.env.log ++ [e])

/-- `return v`: the result is delivered to the caller (`00_scope.md` section 7). -/
def returnValue (r : Result) (s : State) : State := s.setReturns (s.returns ++ [r])

/-- The encoder's pins as the phase handler finds them: a trace gives the levels sampled, so at that moment the pins hold
them (`10_state.md` R21; DESIGN CHOICE, log entry 12). -/
def drivePhasePins (sample : PinState) (s : State) : State :=
  s.setPins { s.env.pins with a := phaseA sample, b := phaseB sample }

/-- The button pin as its handler finds it (`10_state.md` R21; DESIGN CHOICE, log entry 12). -/
def driveButtonPin (level : Bool) (s : State) : State := s.setPins { s.env.pins with btn := level }

/-- `PinRead(A)`, `PinRead(B)` and `PinRead(BTN)` (`60_exceptions.md` R125). -/
def pinReadA (s : State) : Bool := s.env.pins.a
def pinReadB (s : State) : Bool := s.env.pins.b
def pinReadBtn (s : State) : Bool := s.env.pins.btn

/-- `current_state = {PinRead(A), PinRead(B)}` (`30_encoding.md` R45). -/
def samplePhasePins (s : State) : PinState := pinState (pinReadA s) (pinReadB s)

/-- Two operations in order: the second starts from the state the first leaves (`20_memory.md` R35, `30_encoding.md` R59). -/
def andThen (o : Host.Outcome State Fault Refusal) (k : State → Host.Outcome State Fault Refusal) :
    Host.Outcome State Fault Refusal :=
  match o with
  | .next t    => k t
  | .fault r   => .fault r
  | .refused r => .refused r

/-- What `step` finds next: nothing left of the trace, a word of no row, or an instruction with the state after its word is
taken. -/
inductive Fetched where
  | nothing
  | malformed
  | run (i : Instr) (s : State)
  deriving DecidableEq, Repr

/-- Take the next word of the trace and decode it (`10_state.md` R18; log entry 1). -/
def fetch (s : State) : Fetched :=
  match s.trace with
  | []        => .nothing
  | w :: rest =>
    match decode s.cfg w with
    | none   => .malformed
    | some i => .run i (s.setTrace rest)

/-- Place a word where `fetch` takes the next one from. -/
def placeWord (w : TableWord) (s : State) : State := s.setTrace (w :: s.trace)

end Sys2Proof.Machine
end

