-- ==== Sys2Proof/Machine/Environment.lean ====
section
/-! DEFINITION. The environment's two events (`00_scope.md` R2). -/

namespace Sys2Proof.Machine

/-- A byte arrives: it joins the tail of the queue (`41_protocol_driver.md` R100, `20_memory.md` R43). -/
def arriveByte (b : Byte) (s : State) : Host.Outcome State Fault Refusal :=
  whenRunning s (.next (s.setRx (s.env.rx ++ [b])))

/-- ENV_RX_ARRIVE(b) (`41_protocol_driver.md` R100). -/
def execEnvRxArrive (b : Byte) (s : State) : Host.Outcome State Fault Refusal := arriveByte b s

/-- ENV_RESET: the only event that acts on a halted machine (`70_reset_and_hazards.md` R135). -/
def execEnvReset (s : State) : Host.Outcome State Fault Refusal := .next (powerOn s)

end Sys2Proof.Machine
end

