-- ==== Sys2Proof/Machine/Flags.lean ====
section
/-! DEFINITION. The status bits (`10_state.md` R20): how each is computed. No operation sets a flag as a side effect of
arithmetic. -/

namespace Sys2Proof.Machine

/-- `button_state = not level`: the pin is active low (`30_encoding.md` R46). -/
def buttonBit (level : Bool) : Bool := !level

/-- `link_ready` after one scanned byte: set by READY_MARKER, kept otherwise (`41_protocol_driver.md` R87). -/
def readyAfter (ready : Bool) (b : Byte) : Bool := if b = readyMarker then true else ready

end Sys2Proof.Machine
end

