-- ==== Sys2Proof/Machine/Protocol.lean ====
section
/-! DEFINITION. Unit PD: the meanings of its five operations (`41_protocol_driver.md` section 1) and of the inbound byte and
outbound frame rows, which run nothing but PD_BEGIN, PD_READ_INDEX followed by PD_VOLUME_DELTA, and
ENV_RX_ARRIVE followed by PD_POLL. -/

namespace Sys2Proof.Machine

/-- Attach the transport, send HS_INIT in one write, mark the link not ready (`41_protocol_driver.md` R85). -/
def beginSession (s : State) : State :=
  (txWrite (handshakeFrame s.cfg) (s.setTransportAttached true)).setLinkReady false

/-- Begin as one operation (`41_protocol_driver.md` R85). -/
def beginOperation (s : State) : Host.Outcome State Fault Refusal :=
  whenRunning s (.next (beginSession s))

/-- PD_BEGIN (`41_protocol_driver.md` R85). -/
def execPdBegin (s : State) : Host.Outcome State Fault Refusal := beginOperation s

/-- SCAN_BYTE(b), run by the poll loop only: the blob test precedes the ready test, and the two are independent (`41_protocol_driver.md` R87,
`60_exceptions.md` R123). -/
def scanByte (b : Byte) (s : State) : State :=
  let s1 := if b = s.cfg.blobMarker then logEvent .blobBegin s else s
  s1.setLinkReady (readyAfter s1.pd.linkReady b)

/-- `repeat n times: b = RxRead(); SCAN_BYTE(b)` (`41_protocol_driver.md` R86, R101). -/
def pollLoop : Nat → State → Host.Outcome State Fault Refusal
  | 0, s     => .next s
  | n + 1, s =>
    match rxRead s with
    | none         => .fault .rxReadEmpty
    | some (b, s1) => pollLoop n (scanByte b s1)

/-- The poll as one operation: the count of bytes is fixed when it starts (`41_protocol_driver.md` R86, R101). -/
def pollOperation (s : State) : Host.Outcome State Fault Refusal :=
  whenRunning s (requireTransport s (pollLoop (rxAvail s) s))

/-- PD_POLL (`41_protocol_driver.md` R86). -/
def execPdPoll (s : State) : Host.Outcome State Fault Refusal := pollOperation s

/-- PD_IS_READY (`41_protocol_driver.md` R88). -/
def execPdIsReady (s : State) : Host.Outcome State Fault Refusal :=
  whenRunning s (.next (returnValue (.ready s.pd.linkReady) s))

/-- A volume-delta request: readiness first (dropped and logged when not ready), then the transport, then the clamped
update and the frame (`41_protocol_driver.md` R89, `60_exceptions.md` R123). -/
def volumeRequest (delta : Int) (s : State) : Host.Outcome State Fault Refusal :=
  if s.pd.linkReady then
    requireTransport s
      (let new := indexByte (clampedIndex s.cfg.steps s.pd.volumeIndex delta)
       .next (txWrite (commandFrame s.cfg new) (s.setVolumeIndex new)))
  else .next (logEvent (.dropNotReady delta) s)

/-- The request as one operation (`41_protocol_driver.md` R89). -/
def volumeOperation (delta : BitVec 32) (s : State) : Host.Outcome State Fault Refusal :=
  whenRunning s (volumeRequest (clickCount delta) s)

/-- PD_VOLUME_DELTA(delta) (`41_protocol_driver.md` R89). -/
def execPdVolumeDelta (delta : BitVec 32) (s : State) : Host.Outcome State Fault Refusal := volumeOperation delta s

/-- The read port as one operation (`41_protocol_driver.md` R90). -/
def readIndexOperation (s : State) : Host.Outcome State Fault Refusal :=
  whenRunning s (.next (returnValue (.index s.pd.volumeIndex.toNat) s))

/-- PD_READ_INDEX (`41_protocol_driver.md` R90). -/
def execPdReadIndex (s : State) : Host.Outcome State Fault Refusal := readIndexOperation s

/-- `FEED b`: the byte arrives, and a poll scans all that is available, this byte last (`30_encoding.md` R59; a byte reaches
the scanner no other way, `41_protocol_driver.md` R87). That an inbound byte row stands for this sequence is the model's choice
(DESIGN CHOICE, log entry 4). -/
def feed (b : Byte) (s : State) : Host.Outcome State Fault Refusal := andThen (arriveByte b s) pollOperation

/-- RX_READY_MARKER (`30_encoding.md` R56). -/
def execRxReadyMarker (s : State) : Host.Outcome State Fault Refusal := feed readyMarker s

/-- RX_BLOB_MARKER (`30_encoding.md` R56). -/
def execRxBlobMarker (s : State) : Host.Outcome State Fault Refusal := feed s.cfg.blobMarker s

/-- RX_OTHER (`30_encoding.md` R56). -/
def execRxOther (b : Byte) (s : State) : Host.Outcome State Fault Refusal := feed b s

/-- TX_HS_INIT: the row's frame is sent by PD_BEGIN, and the row stands for that operation (`30_encoding.md` R52,
`41_protocol_driver.md` R85; DESIGN CHOICE, log entry 5). -/
def execTxHsInit (s : State) : Host.Outcome State Fault Refusal := beginOperation s

/-- The index a caller knows: the one the latest result delivered, 0 where that result is no index. -/
def deliveredIndex (results : List Result) : Nat :=
  match results.getLast? with
  | some (.index v)  => v
  | some (.delta _)  => 0
  | some (.button _) => 0
  | some (.ready _)  => 0
  | none             => 0

/-- The operand of the request that moves the index to `idx`, computed by the caller from the results delivered to it; the block's
own registers are not read (`00_scope.md` R2). 32 bits hold the difference exactly. -/
def clicksTo (idx : Byte) (results : List Result) : BitVec 32 :=
  BitVec.ofInt 32 ((idx.toNat : Int) - (deliveredIndex results : Int))

/-- TX_VOLUME_CMD: the row's frame is sent by PD_VOLUME_DELTA, and the row stands for PD_READ_INDEX followed by that operation with
the operand that goes from the index read to `idx` (`30_encoding.md` R53, `41_protocol_driver.md` R89, R90; DESIGN CHOICE, log
entry 5). -/
def execTxVolumeCmd (idx : Byte) (s : State) : Host.Outcome State Fault Refusal :=
  andThen (readIndexOperation s) (fun t => volumeOperation (clicksTo idx t.returns) t)

end Sys2Proof.Machine
end

