-- ==== Sys2Proof/Machine/Table.lean ====
section
/-! DEFINITION. The transition table `T`: its ROM image and read (`30_encoding.md` R47, R48, R49), and the other forms the
spec gives of the same table. -/

namespace Sys2Proof.Machine

/-- The ROM image: entry `idx` at bits `[2*idx+1 : 2*idx]` (`30_encoding.md` R49). -/
def ttRom : BitVec 32 := 0x3443C11C#32

/-- The flat ROM address `{previous, current} = 4*previous + current` (`30_encoding.md` R47). -/
def romIndex (p c : PinState) : BitVec 4 := p ++ c

/-- The stored 2-bit code at an address (`30_encoding.md` R49). -/
def romCode (i : BitVec 4) : BitVec 2 := ttRom.extractLsb' (2 * i.toNat) 2

/-- `T[p][c] = sext_2(TT[idx])`, a step in {-1, 0, +1} (`30_encoding.md` R48, R49). -/
def tableStep (p c : PinState) : Int := (romCode (romIndex p c)).toInt

/-- The phase of a pin state on the cycle 00, 10, 11, 01: `{s[0], s[1] xor s[0]}` (`30_encoding.md` R48). -/
def phi (s : PinState) : BitVec 2 := BitVec.ofBool (s.getLsbD 0) ++ BitVec.ofBool (s.getLsbD 1 ^^ s.getLsbD 0)

/-- The step by the phase form of R48: from `d = (phi(c) - phi(p)) mod 4`. -/
def phaseStep (p c : PinState) : Int :=
  match (phi c - phi p).toNat with
  | 1 => 1
  | 3 => -1
  | _ => 0

/-- The step by the bit-level form (`30_encoding.md` R61). -/
def bitStep (p c : PinState) : Int :=
  let pa := p.getLsbD 1
  let pb := p.getLsbD 0
  let ca := c.getLsbD 1
  let cb := c.getLsbD 0
  if (pa ^^ ca) ^^ (pb ^^ cb) then (if pa ^^ cb then -1 else 1) else 0

end Sys2Proof.Machine
end

