-- ==== Sys2Proof/Machine/Quadrature.lean ====
section
/-! DEFINITION. Unit QD: the meanings of its four operations (`40_quadrature_decoder.md` section 1) and of the sixteen
transition-table rows, which run nothing but phase edges. -/

namespace Sys2Proof.Machine

/-- The handler's body: look the transition up, add its step with saturation, store the new state
(`40_quadrature_decoder.md` R65). The pin state is the one the pins hold when the handler samples them. -/
def stepDecoder (s : State) : State :=
  let current := samplePhasePins s
  let step := tableStep s.qd.previousState current
  (s.setAccumulatedDelta (sat s.cfg.accWidth (s.qd.accumulatedDelta + step))).setPreviousState current

/-- The phase-pin handler as one operation: the halt check, then the body (`60_exceptions.md` R123). -/
def phaseEdge (sample : PinState) (s : State) : Host.Outcome State Fault Refusal :=
  whenRunning s (.next (stepDecoder (drivePhasePins sample s)))

/-- QD_PHASE_EDGE(s) (`40_quadrature_decoder.md` R65). -/
def execQdPhaseEdge (sample : PinState) (s : State) : Host.Outcome State Fault Refusal := phaseEdge sample s

/-- QD_BUTTON_EDGE(level) (`40_quadrature_decoder.md` R66). -/
def execQdButtonEdge (level : Bool) (s : State) : Host.Outcome State Fault Refusal :=
  let s1 := driveButtonPin level s
  whenRunning s (.next (s1.setButtonState (buttonBit (pinReadBtn s1))))

/-- QD_DRAIN: one exchange of the accumulator with 0 (`40_quadrature_decoder.md` R67, `20_memory.md` R39). -/
def execQdDrain (s : State) : Host.Outcome State Fault Refusal :=
  whenRunning s (.next (returnValue (.delta s.qd.accumulatedDelta) (s.setAccumulatedDelta 0)))

/-- QD_READ_BUTTON (`40_quadrature_decoder.md` R68). -/
def execQdReadButton (s : State) : Host.Outcome State Fault Refusal :=
  whenRunning s (.next (returnValue (.button s.qd.buttonState) s))

/-- `TURN p c`: the two phase edges whose second takes the transition from `p` to `c`, and so the entry `T[p][c]`
(`30_encoding.md` R59, R47). That a table row stands for this sequence is the model's choice (DESIGN CHOICE, log entry 3). -/
def turnThrough (p c : PinState) (s : State) : Host.Outcome State Fault Refusal :=
  andThen (phaseEdge p s) (phaseEdge c)

/-- T_00_00 (`30_encoding.md` R48). -/
def execTt0000 (s : State) : Host.Outcome State Fault Refusal := turnThrough 0b00#2 0b00#2 s

/-- T_00_01 (`30_encoding.md` R48). -/
def execTt0001 (s : State) : Host.Outcome State Fault Refusal := turnThrough 0b00#2 0b01#2 s

/-- T_00_10 (`30_encoding.md` R48). -/
def execTt0010 (s : State) : Host.Outcome State Fault Refusal := turnThrough 0b00#2 0b10#2 s

/-- T_00_11 (`30_encoding.md` R48). -/
def execTt0011 (s : State) : Host.Outcome State Fault Refusal := turnThrough 0b00#2 0b11#2 s

/-- T_01_00 (`30_encoding.md` R48). -/
def execTt0100 (s : State) : Host.Outcome State Fault Refusal := turnThrough 0b01#2 0b00#2 s

/-- T_01_01 (`30_encoding.md` R48). -/
def execTt0101 (s : State) : Host.Outcome State Fault Refusal := turnThrough 0b01#2 0b01#2 s

/-- T_01_10 (`30_encoding.md` R48). -/
def execTt0110 (s : State) : Host.Outcome State Fault Refusal := turnThrough 0b01#2 0b10#2 s

/-- T_01_11 (`30_encoding.md` R48). -/
def execTt0111 (s : State) : Host.Outcome State Fault Refusal := turnThrough 0b01#2 0b11#2 s

/-- T_10_00 (`30_encoding.md` R48). -/
def execTt1000 (s : State) : Host.Outcome State Fault Refusal := turnThrough 0b10#2 0b00#2 s

/-- T_10_01 (`30_encoding.md` R48). -/
def execTt1001 (s : State) : Host.Outcome State Fault Refusal := turnThrough 0b10#2 0b01#2 s

/-- T_10_10 (`30_encoding.md` R48). -/
def execTt1010 (s : State) : Host.Outcome State Fault Refusal := turnThrough 0b10#2 0b10#2 s

/-- T_10_11 (`30_encoding.md` R48). -/
def execTt1011 (s : State) : Host.Outcome State Fault Refusal := turnThrough 0b10#2 0b11#2 s

/-- T_11_00 (`30_encoding.md` R48). -/
def execTt1100 (s : State) : Host.Outcome State Fault Refusal := turnThrough 0b11#2 0b00#2 s

/-- T_11_01 (`30_encoding.md` R48). -/
def execTt1101 (s : State) : Host.Outcome State Fault Refusal := turnThrough 0b11#2 0b01#2 s

/-- T_11_10 (`30_encoding.md` R48). -/
def execTt1110 (s : State) : Host.Outcome State Fault Refusal := turnThrough 0b11#2 0b10#2 s

/-- T_11_11 (`30_encoding.md` R48). -/
def execTt1111 (s : State) : Host.Outcome State Fault Refusal := turnThrough 0b11#2 0b11#2 s

end Sys2Proof.Machine
end

