-- ==== Sys2Proof/Machine/Dispatch.lean ====
section
/-! DEFINITION. One arm per constructor of Instr, each one direct call of its meaning. -/

namespace Sys2Proof.Machine

def exec (i : Instr) (s : State) : Host.Outcome State Fault Refusal :=
  match i with
  | .qdPhaseEdge sample => Sys2Proof.Machine.execQdPhaseEdge sample s
  | .qdButtonEdge level => Sys2Proof.Machine.execQdButtonEdge level s
  | .qdDrain => Sys2Proof.Machine.execQdDrain s
  | .qdReadButton => Sys2Proof.Machine.execQdReadButton s
  | .pdBegin => Sys2Proof.Machine.execPdBegin s
  | .pdPoll => Sys2Proof.Machine.execPdPoll s
  | .pdIsReady => Sys2Proof.Machine.execPdIsReady s
  | .pdVolumeDelta delta => Sys2Proof.Machine.execPdVolumeDelta delta s
  | .pdReadIndex => Sys2Proof.Machine.execPdReadIndex s
  | .envRxArrive b => Sys2Proof.Machine.execEnvRxArrive b s
  | .envReset => Sys2Proof.Machine.execEnvReset s
  | .tt0000 => Sys2Proof.Machine.execTt0000 s
  | .tt0001 => Sys2Proof.Machine.execTt0001 s
  | .tt0010 => Sys2Proof.Machine.execTt0010 s
  | .tt0011 => Sys2Proof.Machine.execTt0011 s
  | .tt0100 => Sys2Proof.Machine.execTt0100 s
  | .tt0101 => Sys2Proof.Machine.execTt0101 s
  | .tt0110 => Sys2Proof.Machine.execTt0110 s
  | .tt0111 => Sys2Proof.Machine.execTt0111 s
  | .tt1000 => Sys2Proof.Machine.execTt1000 s
  | .tt1001 => Sys2Proof.Machine.execTt1001 s
  | .tt1010 => Sys2Proof.Machine.execTt1010 s
  | .tt1011 => Sys2Proof.Machine.execTt1011 s
  | .tt1100 => Sys2Proof.Machine.execTt1100 s
  | .tt1101 => Sys2Proof.Machine.execTt1101 s
  | .tt1110 => Sys2Proof.Machine.execTt1110 s
  | .tt1111 => Sys2Proof.Machine.execTt1111 s
  | .rxReadyMarker => Sys2Proof.Machine.execRxReadyMarker s
  | .rxBlobMarker => Sys2Proof.Machine.execRxBlobMarker s
  | .rxOther b => Sys2Proof.Machine.execRxOther b s
  | .txHsInit => Sys2Proof.Machine.execTxHsInit s
  | .txVolumeCmd idx => Sys2Proof.Machine.execTxVolumeCmd idx s

end Sys2Proof.Machine
end

