-- ==== Sys2Proof/Machine/Step.lean ====
section
/-! DEFINITION. One step: the next word of the trace is taken, decoded and executed. -/

namespace Sys2Proof.Machine

/-- With nothing left of the trace the machine stays as it is ("the hardware never exits", `00_scope.md` section 8;
DESIGN CHOICE, log entry 2); a word of no row is refused (`30_encoding.md` R57). -/
def step (s : State) : Host.Outcome State Fault Refusal :=
  match fetch s with
  | .nothing   => .next s
  | .malformed => .refused .malformedWord
  | .run i s1  => exec i s1

/-- The state with one more word of the table placed at the head of the trace, where the very next `step` takes it. -/
def State.withFetchWord (s : State) (nbits w : Nat) : State := placeWord (TableWord.ofBits nbits w) s

end Sys2Proof.Machine
end

