-- ==== Sys2Proof/Safety.lean ====
section
/-! DEFINITION. What a claim may call a good state and a good run. -/

namespace Sys2Proof.Machine

open Sys2Proof

/-- ACC_MIN <= a <= ACC_MAX; no bound when the accumulator is unbounded (`10_state.md` R11). -/
abbrev AccInRange (c : Config) (a : Int) : Prop := ∀ w ∈ c.accWidth, accMin w ≤ a ∧ a ≤ accMax w

/-- A frame this driver may have sent: HS_INIT, or eight bytes CMD_HDR, a legal index, and the sum of the first seven
(`41_protocol_driver.md` R96, `20_memory.md` R32). -/
abbrev FrameOk (c : Config) (f : Frame) : Prop :=
  f = c.hsInit.toList ∨
    (f.length = 8 ∧ f.take 6 = headerBytes c.cmdHdr ∧ (f.getD 6 0#8).toNat ≤ 2 * c.steps ∧
      f.getD 7 0#8 = sum8 (f.take 7))

/-- What holds in every reachable state: the parameters are admissible; the accumulator is in range (R11); the index is
in `[0, 2*STEPS]` (R17); readiness implies attachment (R94); the machine is halted only when unattached (R95, R111); nothing
is sent before attachment and HS_INIT is the first frame; every frame sent is whole and right (R96, R32). -/
abbrev Inv (s : State) : Prop :=
  s.cfg.Ok ∧
  AccInRange s.cfg s.qd.accumulatedDelta ∧
  s.pd.volumeIndex.toNat ≤ 2 * s.cfg.steps ∧
  (s.pd.linkReady = true → s.pd.transportAttached = true) ∧
  (s.env.fault ≠ none → s.pd.transportAttached = false) ∧
  (s.pd.transportAttached = false → s.env.tx = []) ∧
  (s.pd.transportAttached = true → s.env.tx.head? = some s.cfg.hsInit.toList) ∧
  (∀ f ∈ s.env.tx, FrameOk s.cfg f)

/-- A run that ends halted is a failed run (`60_exceptions.md` R111). -/
abbrev GoodEnd (s : State) : Prop := Inv s ∧ ¬ s.Halted

/-- Operations and events one after another, stopping at the first fault or refusal: a run at the level of
`00_scope.md` R3. -/
def execAll : List Instr → State → Host.Outcome State Fault Refusal
  | [], s      => .next s
  | i :: is, s =>
    match exec i s with
    | .next t    => execAll is t
    | .fault r   => .fault r
    | .refused r => .refused r

/-- `TURN s1 s2 ... sn` (`30_encoding.md` R59): one phase edge per sample. -/
def turn (ps : List PinState) : List Instr := ps.map Instr.qdPhaseEdge

/-- The table as `30_encoding.md` R48 prints it, row by previous state, column by current state. -/
def printedTable (p c : PinState) : Int :=
  (([[ 0, -1,  1,  0],
     [ 1,  0,  0, -1],
     [-1,  0,  0,  1],
     [ 0,  1, -1,  0]] : List (List Int)).getD p.toNat []).getD c.toNat 0

/-- The sum of the steps of a sample sequence that starts from state `p` (`40_quadrature_decoder.md` R72). -/
def stepSum : PinState → List PinState → Int
  | _, []      => 0
  | p, c :: cs => printedTable p c + stepSum c cs

/-- The last sample, or the state the sequence starts from. -/
def lastState (p : PinState) (ps : List PinState) : PinState := ps.getLastD p

/-- The saturating left fold of `40_quadrature_decoder.md` R73. -/
def saturatedFold (w : Option Nat) : Int → PinState → List PinState → Int
  | a, _, []      => a
  | a, p, c :: cs => saturatedFold w (sat w (a + printedTable p c)) c cs

/-- A non-adjacent transition: both bits differ (`00_scope.md` section 9). -/
abbrev NonAdjacent (p c : PinState) : Prop := c = p ^^^ 0b11#2

/-- An adjacent transition: exactly one bit differs (`00_scope.md` section 9). -/
abbrev Adjacent (p c : PinState) : Prop := c = p ^^^ 0b01#2 ∨ c = p ^^^ 0b10#2

/-- How many transitions of a sample sequence from `p` satisfy a test. -/
def countSteps (test : PinState → PinState → Bool) : PinState → List PinState → Nat
  | _, []      => 0
  | p, c :: cs => (if test p c then 1 else 0) + countSteps test c cs

/-- `k` excursions to the complement and back: a run of `2k` non-adjacent samples (`40_quadrature_decoder.md` R71). -/
def bounceRun (p : PinState) : Nat → List PinState
  | 0     => []
  | k + 1 => (p ^^^ 0b11#2) :: p :: bounceRun p k

/-- What a result adds to the drained sum: the value QD_DRAIN returned, and 0 for every other result. -/
def drainedValue : Result → Int
  | .delta v => v
  | .button _ | .ready _ | .index _ => 0

/-- The sum of the values QD_DRAINs have returned. -/
def drainedSum : List Result → Int
  | []      => 0
  | r :: rs => drainedValue r + drainedSum rs

/-- The sixteen table rows: instruction, previous state, current state, and the step of that entry as `30_encoding.md` R48
prints it. -/
def tableRows : List (Instr × PinState × PinState × Int) :=
  [ (.tt0000, 0b00#2, 0b00#2, 0),  (.tt0001, 0b00#2, 0b01#2, -1), (.tt0010, 0b00#2, 0b10#2, 1),  (.tt0011, 0b00#2, 0b11#2, 0),
    (.tt0100, 0b01#2, 0b00#2, 1),  (.tt0101, 0b01#2, 0b01#2, 0),  (.tt0110, 0b01#2, 0b10#2, 0),  (.tt0111, 0b01#2, 0b11#2, -1),
    (.tt1000, 0b10#2, 0b00#2, -1), (.tt1001, 0b10#2, 0b01#2, 0),  (.tt1010, 0b10#2, 0b10#2, 0),  (.tt1011, 0b10#2, 0b11#2, 1),
    (.tt1100, 0b11#2, 0b00#2, 0),  (.tt1101, 0b11#2, 0b01#2, 1),  (.tt1110, 0b11#2, 0b10#2, -1), (.tt1111, 0b11#2, 0b11#2, 0) ]

/-- The results delivered once the index is read from a state. -/
def resultsAfterRead (s : State) : List Result :=
  match exec .pdReadIndex s with
  | .next t    => t.returns
  | .fault _   => s.returns
  | .refused _ => s.returns

/-- The operations and events an instruction stands for, in order: itself for the eleven of `00_scope.md` R2, the sequence of
log entries 3 to 5 for an item row. A row that goes to an index takes its operand from the result its read delivers. -/
def operationsOf (s : State) : Instr → List Instr
  | .qdPhaseEdge c   => [.qdPhaseEdge c]
  | .qdButtonEdge l  => [.qdButtonEdge l]
  | .qdDrain         => [.qdDrain]
  | .qdReadButton    => [.qdReadButton]
  | .pdBegin         => [.pdBegin]
  | .pdPoll          => [.pdPoll]
  | .pdIsReady       => [.pdIsReady]
  | .pdVolumeDelta d => [.pdVolumeDelta d]
  | .pdReadIndex     => [.pdReadIndex]
  | .envRxArrive b   => [.envRxArrive b]
  | .envReset        => [.envReset]
  | .tt0000 => turn [0b00#2, 0b00#2]
  | .tt0001 => turn [0b00#2, 0b01#2]
  | .tt0010 => turn [0b00#2, 0b10#2]
  | .tt0011 => turn [0b00#2, 0b11#2]
  | .tt0100 => turn [0b01#2, 0b00#2]
  | .tt0101 => turn [0b01#2, 0b01#2]
  | .tt0110 => turn [0b01#2, 0b10#2]
  | .tt0111 => turn [0b01#2, 0b11#2]
  | .tt1000 => turn [0b10#2, 0b00#2]
  | .tt1001 => turn [0b10#2, 0b01#2]
  | .tt1010 => turn [0b10#2, 0b10#2]
  | .tt1011 => turn [0b10#2, 0b11#2]
  | .tt1100 => turn [0b11#2, 0b00#2]
  | .tt1101 => turn [0b11#2, 0b01#2]
  | .tt1110 => turn [0b11#2, 0b10#2]
  | .tt1111 => turn [0b11#2, 0b11#2]
  | .rxReadyMarker   => [.envRxArrive readyMarker, .pdPoll]
  | .rxBlobMarker    => [.envRxArrive s.cfg.blobMarker, .pdPoll]
  | .rxOther b       => [.envRxArrive b, .pdPoll]
  | .txHsInit        => [.pdBegin]
  | .txVolumeCmd idx => [.pdReadIndex, .pdVolumeDelta (clicksTo idx (resultsAfterRead s))]

/-- The nine operations and two events of `00_scope.md` R2. -/
def isOperation : Instr → Bool
  | .qdPhaseEdge _ | .qdButtonEdge _ | .qdDrain | .qdReadButton | .pdBegin | .pdPoll | .pdIsReady | .pdVolumeDelta _ |
  .pdReadIndex | .envRxArrive _ | .envReset => true
  | .tt0000 | .tt0001 | .tt0010 | .tt0011 | .tt0100 | .tt0101 | .tt0110 | .tt0111 | .tt1000 | .tt1001 | .tt1010 |
  .tt1011 | .tt1100 | .tt1101 | .tt1110 | .tt1111 | .rxReadyMarker | .rxBlobMarker | .rxOther _ | .txHsInit |
  .txVolumeCmd _ => false

/-- The samples of the phase edges an instruction runs. -/
def phaseSamples : Instr → List PinState
  | .qdPhaseEdge c => [c]
  | .tt0000 => [0b00#2, 0b00#2]
  | .tt0001 => [0b00#2, 0b01#2]
  | .tt0010 => [0b00#2, 0b10#2]
  | .tt0011 => [0b00#2, 0b11#2]
  | .tt0100 => [0b01#2, 0b00#2]
  | .tt0101 => [0b01#2, 0b01#2]
  | .tt0110 => [0b01#2, 0b10#2]
  | .tt0111 => [0b01#2, 0b11#2]
  | .tt1000 => [0b10#2, 0b00#2]
  | .tt1001 => [0b10#2, 0b01#2]
  | .tt1010 => [0b10#2, 0b10#2]
  | .tt1011 => [0b10#2, 0b11#2]
  | .tt1100 => [0b11#2, 0b00#2]
  | .tt1101 => [0b11#2, 0b01#2]
  | .tt1110 => [0b11#2, 0b10#2]
  | .tt1111 => [0b11#2, 0b11#2]
  | .qdButtonEdge _ | .qdDrain | .qdReadButton | .pdBegin | .pdPoll | .pdIsReady | .pdVolumeDelta _ | .pdReadIndex |
  .envRxArrive _ | .envReset | .rxReadyMarker | .rxBlobMarker | .rxOther _ | .txHsInit | .txVolumeCmd _ => []

/-- The sum of the steps of all phase edges some instructions run, from state `p`. -/
def edgeSum : PinState → List Instr → Int
  | _, []      => 0
  | p, i :: is => stepSum p (phaseSamples i) + edgeSum (lastState p (phaseSamples i)) is

/-- No sample of a sequence saturates the accumulator, from value `a` and state `p`. -/
def Unsaturated (w : Option Nat) : Int → PinState → List PinState → Prop
  | _, _, []      => True
  | a, p, c :: cs => sat w (a + printedTable p c) = a + printedTable p c ∧ Unsaturated w (a + printedTable p c) c cs

/-- No phase edge that some instructions run saturates the accumulator, from value `a` and state `p`
(`40_quadrature_decoder.md` R74, `70_reset_and_hazards.md` R147). -/
def NoSaturation (w : Option Nat) : Int → PinState → List Instr → Prop
  | _, _, []      => True
  | a, p, i :: is =>
    Unsaturated w a p (phaseSamples i) ∧
      NoSaturation w (if i = .qdDrain then 0 else a + stepSum p (phaseSamples i)) (lastState p (phaseSamples i)) is

/-- The four operations of unit QD (`00_scope.md` R2). -/
def isQdOperation : Instr → Bool
  | .qdPhaseEdge _ | .qdButtonEdge _ | .qdDrain | .qdReadButton => true
  | .pdBegin | .pdPoll | .pdIsReady | .pdVolumeDelta _ | .pdReadIndex | .envRxArrive _ | .envReset | .tt0000 |
  .tt0001 | .tt0010 | .tt0011 | .tt0100 | .tt0101 | .tt0110 | .tt0111 | .tt1000 | .tt1001 | .tt1010 | .tt1011
  | .tt1100 | .tt1101 | .tt1110 | .tt1111 | .rxReadyMarker | .rxBlobMarker | .rxOther _ | .txHsInit |
  .txVolumeCmd _ => false

/-- The five operations of unit PD (`00_scope.md` R2). -/
def isPdOperation : Instr → Bool
  | .pdBegin | .pdPoll | .pdIsReady | .pdVolumeDelta _ | .pdReadIndex => true
  | .qdPhaseEdge _ | .qdButtonEdge _ | .qdDrain | .qdReadButton | .envRxArrive _ | .envReset | .tt0000 |
  .tt0001 | .tt0010 | .tt0011 | .tt0100 | .tt0101 | .tt0110 | .tt0111 | .tt1000 | .tt1001 | .tt1010 | .tt1011
  | .tt1100 | .tt1101 | .tt1110 | .tt1111 | .rxReadyMarker | .rxBlobMarker | .rxOther _ | .txHsInit |
  .txVolumeCmd _ => false

/-- The instructions that return a result: the four operations of `30_encoding.md` R62, and the row that reads the index (log
entry 5). -/
def deliversResult : Instr → Bool
  | .qdDrain | .qdReadButton | .pdIsReady | .pdReadIndex | .txVolumeCmd _ => true
  | .qdPhaseEdge _ | .qdButtonEdge _ | .pdBegin | .pdPoll | .pdVolumeDelta _ | .envRxArrive _ | .envReset | .tt0000 |
  .tt0001 | .tt0010 | .tt0011 | .tt0100 | .tt0101 | .tt0110 | .tt0111 | .tt1000 | .tt1001 | .tt1010 | .tt1011
  | .tt1100 | .tt1101 | .tt1110 | .tt1111 | .rxReadyMarker | .rxBlobMarker | .rxOther _ | .txHsInit => false

/-- The log events of a polled byte sequence: one BLOB_BEGIN per byte equal to BLOB_MARKER (`41_protocol_driver.md` R87). -/
def blobEvents (c : Config) (bs : List Byte) : List LogEvent := List.replicate (bs.count c.blobMarker) .blobBegin

/-- The two encoder phases exchanged (`40_quadrature_decoder.md` R75). -/
def swapPhases (p : PinState) : PinState := pinState (phaseB p) (phaseA p)

/-- The rows of `30_encoding.md` R51, each its match and its mask. -/
def traceRows : List (BitVec 40 × BitVec 40) :=
  [ (0x0000000000#40, 0xFFFFFFFFFC#40),
    (0x0100000000#40, 0xFFFFFFFFFE#40),
    (0x0200000000#40, 0xFFFFFFFFFF#40),
    (0x0300000000#40, 0xFFFFFFFFFF#40),
    (0x0400000000#40, 0xFFFFFFFFFF#40),
    (0x0500000000#40, 0xFFFFFFFFFF#40),
    (0x0600000000#40, 0xFFFFFFFFFF#40),
    (0x0700000000#40, 0xFF00000000#40),
    (0x0800000000#40, 0xFFFFFFFFFF#40),
    (0x0E00000000#40, 0xFFFFFFFF00#40),
    (0x0F00000000#40, 0xFFFFFFFFFF#40) ]

end Sys2Proof.Machine
end

