-- ==== Sys2Proof/Certificates/Slice0/Obligations.lean ====
section
/-! DEFINITION. The statements for the provers. Each says in its docstring which rule of spec/ it formalises. A statement about
an operation's own effect has the one hypothesis that the machine is not halted (`60_exceptions.md` R111), and others only
where the rule has them. `returns` is where the model records "return v" (log entry 7). "An inference of the spec" says that
the rule is marked `[derived: ...]` in spec/. -/

open Sys2Proof Sys2Proof.Machine

/-- R65: the accumulator takes the saturated sum with the table's step, the sampled state becomes the previous state, for
every sample; nothing is returned and nothing else of the block or its streams changes. (The pins are in
`Obligations.SampledLevelsAreThePins`.) -/
def Obligations.PhaseEdgeAddsTableStep : Prop :=
  ∀ (s : State) (p : PinState), s.env.fault = none →
    ∃ t, exec (.qdPhaseEdge p) s = .next t ∧
      t.qd = { s.qd with
        accumulatedDelta := sat s.cfg.accWidth (s.qd.accumulatedDelta + printedTable s.qd.previousState p)
        previousState := p } ∧
      t.pd = s.pd ∧ t.cfg = s.cfg ∧ t.returns = s.returns ∧ t.trace = s.trace ∧
      t.env.rx = s.env.rx ∧ t.env.tx = s.env.tx ∧ t.env.log = s.env.log ∧ t.env.fault = s.env.fault

/-- R47, R48, R49, R61 (fifteen of R48's entries and R61 are inferences of the spec, "this spec's derivation, not a
transcription"): the ROM read, the printed table, the phase form and the bit form agree on all sixteen entries; the ROM
address is 4*previous + current; the stored code is never 0b10; the image is 0x3443C11C. -/
def Obligations.TransitionTableFormsAgree : Prop :=
  ttRom = 0x3443C11C#32 ∧
  ∀ p c : PinState,
    (romIndex p c).toNat = 4 * p.toNat + c.toNat ∧
    romCode (romIndex p c) ≠ 0b10#2 ∧
    (romCode (romIndex p c)).toInt = printedTable p c ∧
    tableStep p c = printedTable p c ∧ phaseStep p c = printedTable p c ∧ bitStep p c = printedTable p c

/-- R66: the button bit is the inverse of the sampled level, at every level; nothing else of the block or its streams changes.
(The pin is in `Obligations.SampledLevelsAreThePins`.) -/
def Obligations.ButtonEdgeStoresInverseLevel : Prop :=
  ∀ (s : State) (level : Bool), s.env.fault = none →
    ∃ t, exec (.qdButtonEdge level) s = .next t ∧
      t.qd = { s.qd with buttonState := !level } ∧
      t.pd = s.pd ∧ t.cfg = s.cfg ∧ t.returns = s.returns ∧ t.trace = s.trace ∧
      t.env.rx = s.env.rx ∧ t.env.tx = s.env.tx ∧ t.env.log = s.env.log ∧ t.env.fault = s.env.fault

/-- The model's choice (log entry 12), not a rule: the pins hold the levels the latest handler of their source sampled, and
neither handler touches the other's pin; reset leaves the pins, and the model's own trace and results (log entries 1, 7). -/
def Obligations.SampledLevelsAreThePins : Prop :=
  ∀ (s : State) (p : PinState) (level : Bool), s.env.fault = none →
    (∃ t, exec (.qdPhaseEdge p) s = .next t ∧
      t.env.pins = { s.env.pins with a := p.getLsbD 1, b := p.getLsbD 0 }) ∧
    (∃ t, exec (.qdButtonEdge level) s = .next t ∧ t.env.pins = { s.env.pins with btn := level }) ∧
    (∃ t, exec .envReset s = .next t ∧ t.env.pins = s.env.pins ∧ t.trace = s.trace ∧ t.returns = s.returns)

/-- R67: the drain returns the accumulator and zeroes it; `previous_state` and everything else stay. -/
def Obligations.DrainReturnsAndZeroes : Prop :=
  ∀ s : State, s.env.fault = none →
    exec .qdDrain s = .next { s with
      qd := { s.qd with accumulatedDelta := 0 }
      returns := s.returns ++ [.delta s.qd.accumulatedDelta] }

/-- R68: the button read returns the bit and changes nothing. -/
def Obligations.ButtonReadReturnsBit : Prop :=
  ∀ s : State, s.env.fault = none →
    exec .qdReadButton s = .next { s with returns := s.returns ++ [.button s.qd.buttonState] }

/-- R65 corner case (iii) and R113's half for the accumulator: at a bound the accumulator stays there and the sampled state is stored all the same;
a sum inside the range is the plain sum; there is no wrap-around. -/
def Obligations.AccumulatorSaturatesAtBounds : Prop :=
  ∀ (s : State) (p : PinState) (w : Nat), s.env.fault = none → s.cfg.accWidth = some w → 2 ≤ w →
    ∃ t, exec (.qdPhaseEdge p) s = .next t ∧ t.qd.previousState = p ∧
      (s.qd.accumulatedDelta = accMax w → printedTable s.qd.previousState p = 1 →
        t.qd.accumulatedDelta = accMax w) ∧
      (s.qd.accumulatedDelta = accMin w → printedTable s.qd.previousState p = -1 →
        t.qd.accumulatedDelta = accMin w) ∧
      (accMin w ≤ s.qd.accumulatedDelta + printedTable s.qd.previousState p →
        s.qd.accumulatedDelta + printedTable s.qd.previousState p ≤ accMax w →
        t.qd.accumulatedDelta = s.qd.accumulatedDelta + printedTable s.qd.previousState p)

/-- R73, an inference of the spec: over any run of samples the accumulator is the saturating left fold and the previous state the last sample; it is the
plain sum when unbounded, and whenever |a0| + n <= ACC_MAX; the fold is not the clamp of the final sum. -/
def Obligations.AccumulationIsSaturatedFold : Prop :=
  (∀ (s : State) (ps : List PinState), s.env.fault = none →
    ∃ t, execAll (turn ps) s = .next t ∧
      t.qd.accumulatedDelta = saturatedFold s.cfg.accWidth s.qd.accumulatedDelta s.qd.previousState ps ∧
      t.qd.previousState = lastState s.qd.previousState ps ∧
      (s.cfg.accWidth = none →
        t.qd.accumulatedDelta = s.qd.accumulatedDelta + stepSum s.qd.previousState ps) ∧
      (∀ w, s.cfg.accWidth = some w → 2 ≤ w →
        (s.qd.accumulatedDelta.natAbs : Int) + (ps.length : Int) ≤ accMax w →
        t.qd.accumulatedDelta = s.qd.accumulatedDelta + stepSum s.qd.previousState ps)) ∧
  saturatedFold (some 8) 127 0b00#2 [0b10#2, 0b00#2] = 126 ∧ 127 + stepSum 0b00#2 [0b10#2, 0b00#2] = 127

/-- R70, an inference of the spec: the table is antisymmetric with a zero diagonal, so a bounce out and straight back contributes 0. -/
def Obligations.BounceOutAndBackCancels : Prop :=
  ∀ p c : PinState, tableStep c p = -tableStep p c ∧ tableStep p p = 0 ∧ tableStep p c + tableStep c p = 0

/-- R71, an inference of the spec: a non-adjacent transition contributes 0 and moves to the complement; a run of an even number of them, or a
same-state sample, inserted at any point of a sample sequence leaves the decoder exactly as without it; an odd run need not:
from 0b10 the sample 0b11 gives +1, and 0b01 then 0b11 gives -1. -/
def Obligations.EvenBounceRunsLeaveNoTrace : Prop :=
  (∀ p : PinState, printedTable p (p ^^^ 0b11#2) = 0) ∧
  (∀ (s : State) (ps qs : List PinState) (k : Nat), s.env.fault = none →
    AccInRange s.cfg s.qd.accumulatedDelta → s.cfg.Ok →
    ∃ t u v,
      execAll (turn (ps ++ qs)) s = .next t ∧
      execAll (turn (ps ++ bounceRun (lastState s.qd.previousState ps) k ++ qs)) s = .next u ∧
      execAll (turn (ps ++ [lastState s.qd.previousState ps] ++ qs)) s = .next v ∧
      u.qd = t.qd ∧ v.qd = t.qd) ∧
  (∀ s : State, s.env.fault = none → s.cfg.Ok → s.qd.accumulatedDelta = 0 → s.qd.previousState = 0b10#2 →
    ∃ t u,
      execAll (turn [0b11#2]) s = .next t ∧ t.qd.accumulatedDelta = 1 ∧
      execAll (turn [0b01#2, 0b11#2]) s = .next u ∧ u.qd.accumulatedDelta = -1)

/-- R72, an inference of the spec: modulo 4 the sum of the steps is the phase travelled plus twice the number of non-adjacent transitions; with only
adjacent and same-state transitions it is the net number of quarter steps; a full turn gives +4 or -4; a closed adjacent path
gives a multiple of 4; and without saturation the accumulator moves by exactly this sum. -/
def Obligations.StepSumFollowsPhase : Prop :=
  (∀ (p : PinState) (ps : List PinState),
    (stepSum p ps - (((phi (lastState p ps)).toNat : Int) - ((phi p).toNat : Int)
      + 2 * (countSteps (fun a b => decide (NonAdjacent a b)) p ps : Int))) % 4 = 0 ∧
    (countSteps (fun a b => decide (NonAdjacent a b)) p ps = 0 →
      stepSum p ps = (countSteps (fun a b => phi b == phi a + 1#2) p ps : Int)
        - (countSteps (fun a b => phi b == phi a - 1#2) p ps : Int)) ∧
    (countSteps (fun a b => decide (NonAdjacent a b)) p ps = 0 → lastState p ps = p → stepSum p ps % 4 = 0)) ∧
  stepSum 0b00#2 [0b10#2, 0b11#2, 0b01#2, 0b00#2] = 4 ∧
  stepSum 0b00#2 [0b01#2, 0b11#2, 0b10#2, 0b00#2] = -4 ∧
  (∀ (s : State) (ps : List PinState), s.env.fault = none →
    Unsaturated s.cfg.accWidth s.qd.accumulatedDelta s.qd.previousState ps →
    ∃ t, execAll (turn ps) s = .next t ∧
      t.qd.accumulatedDelta = s.qd.accumulatedDelta + stepSum s.qd.previousState ps)

/-- R74, an inference of the spec: in any run that is not reset and does not fault, with edges, drains and every other operation interleaved in any
way and no edge saturating, what the drains returned plus what is still held grows by exactly the sum of the steps. -/
def Obligations.DrainsConserveEveryStep : Prop :=
  ∀ (s t : State) (is : List Instr), s.env.fault = none → .envReset ∉ is →
    NoSaturation s.cfg.accWidth s.qd.accumulatedDelta s.qd.previousState is →
    execAll is s = .next t → t.env.fault = none →
    drainedSum t.returns + t.qd.accumulatedDelta
      = drainedSum s.returns + s.qd.accumulatedDelta + edgeSum s.qd.previousState is

/-- R75, an inference of the spec: with the phases swapped every step changes sign; with the phases tied the accumulator never moves; with one phase
stuck the sum since any point stays within {-1, 0, +1}. -/
def Obligations.MiswiredPinsNeverAccumulate : Prop :=
  (∀ p c : PinState, printedTable (swapPhases p) (swapPhases c) = -printedTable p c) ∧
  (∀ (s : State) (ps : List PinState), s.env.fault = none → s.cfg.Ok → AccInRange s.cfg s.qd.accumulatedDelta →
    (∀ q ∈ s.qd.previousState :: ps, q = 0b00#2 ∨ q = 0b11#2) →
    ∃ t, execAll (turn ps) s = .next t ∧ t.qd.accumulatedDelta = s.qd.accumulatedDelta) ∧
  (∀ (p c : PinState) (ps : List PinState), Adjacent p c → (∀ q ∈ ps, q = p ∨ q = c) →
    stepSum p ps = 0 ∨ stepSum p ps = printedTable p c) ∧
  (∀ p c : PinState, -1 ≤ printedTable p c ∧ printedTable p c ≤ 1)

/-- R119, an inference of the spec: the two handlers, in either order, give the same state. -/
def Obligations.HandlersCommute : Prop :=
  ∀ (s : State) (p : PinState) (level : Bool),
    execAll [.qdPhaseEdge p, .qdButtonEdge level] s = execAll [.qdButtonEdge level, .qdPhaseEdge p] s

/-- R120, an inference of the spec: both phase pins moved before the handler ran: one invocation, or two, give the same decoder state, with step 0. -/
def Obligations.BothPhasesAtOnceCountZero : Prop :=
  ∀ s : State, s.env.fault = none → s.cfg.Ok → AccInRange s.cfg s.qd.accumulatedDelta →
    ∃ t u,
      execAll (turn [s.qd.previousState ^^^ 0b11#2]) s = .next t ∧
      execAll (turn [s.qd.previousState ^^^ 0b11#2, s.qd.previousState ^^^ 0b11#2]) s = .next u ∧
      t.qd = u.qd ∧ t.qd.accumulatedDelta = s.qd.accumulatedDelta ∧
      t.qd.previousState = s.qd.previousState ^^^ 0b11#2

/-- R139: the first edge after a reset, of a halted machine too, counts `T[PREV_RESET][s]`, which differs from the true step by
at most 2; the button reads false until its first edge. -/
def Obligations.FirstEdgeJudgedFromResetState : Prop :=
  ∀ (s : State) (p q : PinState), s.cfg.Ok →
    ∃ t, execAll [.envReset, .qdPhaseEdge p] s = .next t ∧
      t.qd = { previousState := p, accumulatedDelta := printedTable s.cfg.prevReset p, buttonState := false } ∧
      -2 ≤ printedTable s.cfg.prevReset p - printedTable q p ∧
      printedTable s.cfg.prevReset p - printedTable q p ≤ 2

/-- R85: begin attaches the transport, sends HS_INIT as one frame and marks the link not ready, also on a second begin; the
index, the received bytes and everything else stay. -/
def Obligations.BeginAttachesSendsUnreadies : Prop :=
  ∀ s : State, s.env.fault = none →
    exec .pdBegin s = .next { s with
      pd := { s.pd with transportAttached := true, linkReady := false }
      env := { s.env with tx := s.env.tx ++ [s.cfg.hsInit.toList] } }

/-- R86: without a transport the poll raises Fault(TransportUnavailable) and changes nothing else; with one it consumes
exactly the bytes available, sets readiness if READY_MARKER is among them, logs one BLOB_BEGIN per blob marker, and changes
nothing else. -/
def Obligations.PollScansEveryByteOrFaults : Prop :=
  ∀ s : State, s.env.fault = none →
    (s.pd.transportAttached = false →
      exec .pdPoll s = .next { s with env := { s.env with fault := some .transportUnavailable } }) ∧
    (s.pd.transportAttached = true →
      exec .pdPoll s = .next { s with
        pd := { s.pd with linkReady := s.pd.linkReady || s.env.rx.contains 0xFB#8 }
        env := { s.env with rx := [], log := s.env.log ++ blobEvents s.cfg s.env.rx } })

/-- R88: the readiness query returns the bit, attached or not, and changes nothing. -/
def Obligations.ReadinessQueryReturnsBit : Prop :=
  ∀ s : State, s.env.fault = none →
    exec .pdIsReady s = .next { s with returns := s.returns ++ [.ready s.pd.linkReady] }

/-- R90: the read port returns the index as an unsigned number and changes nothing. -/
def Obligations.IndexReadReturnsIndex : Prop :=
  ∀ s : State, s.env.fault = none →
    exec .pdReadIndex s = .next { s with returns := s.returns ++ [.index s.pd.volumeIndex.toNat] }

/-- R89: not ready, the request is dropped and logged; ready without a transport, the fault is raised; ready and attached,
the new index is the clamp of the exact sum and one frame with that index is sent. Everything else stays. -/
def Obligations.VolumeRequestDropsOrSends : Prop :=
  ∀ (s : State) (d : BitVec 32), s.env.fault = none → s.cfg.Ok →
    (s.pd.linkReady = false →
      exec (.pdVolumeDelta d) s =
        .next { s with env := { s.env with log := s.env.log ++ [.dropNotReady d.toInt] } }) ∧
    (s.pd.linkReady = true → s.pd.transportAttached = false →
      exec (.pdVolumeDelta d) s = .next { s with env := { s.env with fault := some .transportUnavailable } }) ∧
    (s.pd.linkReady = true → s.pd.transportAttached = true →
      ∃ new : Byte,
        (new.toNat : Int) = max 0 (min ((s.pd.volumeIndex.toNat : Int) + d.toInt) (2 * (s.cfg.steps : Int))) ∧
        exec (.pdVolumeDelta d) s = .next { s with
          pd := { s.pd with volumeIndex := new }
          env := { s.env with tx := s.env.tx ++ [commandFrame s.cfg new] } })

/-- R112: a request while not ready completes, returns nothing, changes no PD state, sends nothing, and is logged; it is never
applied later: whatever runs next runs as if the request had not been made, but for the log. -/
def Obligations.NotReadyRequestIsLoggedDrop : Prop :=
  ∀ (s : State) (d : BitVec 32), s.env.fault = none → s.pd.linkReady = false →
    ∃ t, exec (.pdVolumeDelta d) s = .next t ∧ t.returns = s.returns ∧ t.pd = s.pd ∧ t.env.tx = s.env.tx ∧
      t.env.fault = none ∧ t.env.log = s.env.log ++ [.dropNotReady d.toInt] ∧
      ∀ (is : List Instr) (u : State), execAll is s = .next u →
        ∃ v, execAll is t = .next v ∧ v.qd = u.qd ∧ v.pd = u.pd ∧ v.env.rx = u.env.rx ∧ v.env.tx = u.env.tx ∧
          v.env.fault = u.env.fault ∧ v.returns = u.returns

/-- R92: the index after a request is the clamp; an out-of-range request pins it at the bound, and repeating it keeps it there
and sends again; clamping is not reversible: with the document's 60 steps, from 118, +5 then -5 ends at 115. (Ready implies
attached, R94; a ready state without a transport is in `Obligations.VolumeRequestDropsOrSends`.) -/
def Obligations.ClampingIsIdempotentAtBounds : Prop :=
  ∀ s : State, s.env.fault = none → s.cfg.Ok → s.pd.linkReady = true → s.pd.transportAttached = true →
    (∀ d : BitVec 32, ∃ t u, exec (.pdVolumeDelta d) s = .next t ∧ exec (.pdVolumeDelta d) t = .next u ∧
      (t.pd.volumeIndex.toNat : Int) = max 0 (min ((s.pd.volumeIndex.toNat : Int) + d.toInt) (2 * (s.cfg.steps : Int))) ∧
      (0 < d.toInt → (2 * s.cfg.steps : Int) ≤ (s.pd.volumeIndex.toNat : Int) + d.toInt →
        t.pd.volumeIndex.toNat = 2 * s.cfg.steps ∧ u.pd.volumeIndex = t.pd.volumeIndex) ∧
      (d.toInt < 0 → (s.pd.volumeIndex.toNat : Int) + d.toInt ≤ 0 →
        t.pd.volumeIndex.toNat = 0 ∧ u.pd.volumeIndex = t.pd.volumeIndex) ∧
      t.env.tx.length = s.env.tx.length + 1 ∧ u.env.tx.length = s.env.tx.length + 2) ∧
    (s.cfg.steps = 60 → s.pd.volumeIndex = 118#8 →
      ∃ t u, exec (.pdVolumeDelta 5#32) s = .next t ∧ exec (.pdVolumeDelta (BitVec.ofInt 32 (-5))) t = .next u ∧
        u.pd.volumeIndex = 115#8)

/-- R93: every request executed while ready (and so attached, R94) appends exactly one 8-byte frame, a zero delta included. -/
def Obligations.EveryAcceptedRequestSendsOneFrame : Prop :=
  ∀ (s : State) (d : BitVec 32), s.env.fault = none → s.pd.linkReady = true → s.pd.transportAttached = true →
    ∃ t f, exec (.pdVolumeDelta d) s = .next t ∧ t.env.tx = s.env.tx ++ [f] ∧ f.length = 8

/-- R54, with the layout of R53 and the index byte of R55: the command frame is CMD_HDR, the index byte and the sum of the first seven bytes modulo 256, which is
(H + IDX) mod 256 with H the sum of CMD_HDR. -/
def Obligations.CommandFrameChecksum : Prop :=
  ∀ (c : Config) (idx : Byte),
    (commandFrame c idx).length = 8 ∧
    (commandFrame c idx).take 6 = [c.cmdHdr.f0, c.cmdHdr.f1, c.cmdHdr.f2, c.cmdHdr.p0, c.cmdHdr.p1, c.cmdHdr.cc] ∧
    (commandFrame c idx)[6]? = some idx ∧
    (commandFrame c idx)[7]? = some (c.cmdHdr.f0 + c.cmdHdr.f1 + c.cmdHdr.f2 + c.cmdHdr.p0 + c.cmdHdr.p1 + c.cmdHdr.cc + idx) ∧
    (commandFrame c idx)[7]? = some (sum8 ((commandFrame c idx).take 7)) ∧
    (commandFrame c idx)[7]? = some (sum8 (headerBytes c.cmdHdr) + idx)

/-- R94's monotonicity (the rule is an inference of the spec): nothing but PD_BEGIN (and the row of its frame, log entry 5) and reset clears readiness. -/
def Obligations.ReadinessIsMonotoneWithinSession : Prop :=
  ∀ (i : Instr) (s t : State), i ≠ .pdBegin → i ≠ .txHsInit → i ≠ .envReset →
    exec i s = .next t → s.pd.linkReady = true → t.pd.linkReady = true

/-- R95, an inference of the spec: the session state machine on (attached, ready), row by row, with the outputs. -/
def Obligations.SessionStateTransitions : Prop :=
  ∀ (s : State) (d : BitVec 32), s.env.fault = none →
    -- DETACHED
    (s.pd.transportAttached = false → s.pd.linkReady = false →
      (∃ t, exec .pdBegin s = .next t ∧ t.pd.transportAttached = true ∧ t.pd.linkReady = false ∧
        t.env.tx = s.env.tx ++ [s.cfg.hsInit.toList]) ∧
      (∃ t, exec .pdPoll s = .next t ∧ t.pd = s.pd ∧ t.env.fault = some .transportUnavailable) ∧
      (∃ t, exec (.pdVolumeDelta d) s = .next t ∧ t.pd = s.pd ∧ t.env.log = s.env.log ++ [.dropNotReady d.toInt])) ∧
    -- AWAITING
    (s.pd.transportAttached = true → s.pd.linkReady = false →
      (∃ t, exec .pdPoll s = .next t ∧ t.pd.transportAttached = true ∧
        (t.pd.linkReady = true ↔ (0xFB#8 : Byte) ∈ s.env.rx) ∧ t.env.log = s.env.log ++ blobEvents s.cfg s.env.rx) ∧
      (∃ t, exec (.pdVolumeDelta d) s = .next t ∧ t.pd = s.pd ∧ t.env.log = s.env.log ++ [.dropNotReady d.toInt]) ∧
      (∃ t, exec .pdBegin s = .next t ∧ t.pd.transportAttached = true ∧ t.pd.linkReady = false ∧
        t.env.tx = s.env.tx ++ [s.cfg.hsInit.toList])) ∧
    -- READY
    (s.pd.transportAttached = true → s.pd.linkReady = true →
      (∃ t, exec .pdPoll s = .next t ∧ t.pd.transportAttached = true ∧ t.pd.linkReady = true ∧
        t.env.log = s.env.log ++ blobEvents s.cfg s.env.rx) ∧
      (∃ t, exec (.pdVolumeDelta d) s = .next t ∧ t.pd.transportAttached = true ∧ t.pd.linkReady = true ∧
        t.env.tx = s.env.tx ++ [commandFrame s.cfg t.pd.volumeIndex]) ∧
      (∃ t, exec .pdBegin s = .next t ∧ t.pd.transportAttached = true ∧ t.pd.linkReady = false ∧
        t.env.tx = s.env.tx ++ [s.cfg.hsInit.toList])) ∧
    -- any
    (∃ t, exec .envReset s = .next t ∧ t.pd.transportAttached = false ∧ t.pd.linkReady = false) ∧
    (∃ t, exec .pdIsReady s = .next t ∧ t.pd = s.pd) ∧
    (∃ t, exec .pdReadIndex s = .next t ∧ t.pd = s.pd)

/-- R100: an arriving byte joins the tail of the queue and nothing else changes. -/
def Obligations.ArrivingByteJoinsQueue : Prop :=
  ∀ (s : State) (b : Byte), s.env.fault = none →
    exec (.envRxArrive b) s = .next { s with env := { s.env with rx := s.env.rx ++ [b] } }

/-- R135, R136: reset puts every field at its reset value in every state, a halted one too, and leaves the ROM constants; it is
the only event that acts on a halted machine. -/
def Obligations.ResetRestoresEveryField : Prop :=
  ∀ s : State,
    (∃ t, exec .envReset s = .next t ∧
      t.qd = { previousState := s.cfg.prevReset, accumulatedDelta := 0, buttonState := false } ∧
      t.pd = { transportAttached := false, linkReady := false, volumeIndex := s.cfg.indexReset } ∧
      t.env.rx = [] ∧ t.env.tx = [] ∧ t.env.log = [] ∧ t.env.fault = none ∧ t.cfg = s.cfg) ∧
    (s.env.fault ≠ none → ∀ i : Instr, i ≠ .envReset → exec i s = .next s)

/-- R111: the fault is recorded and nothing else changes; a halted machine's whole state stays unchanged under every
instruction but reset, over any run of them, and nothing is returned; reset leaves the halted state; beginning a session and
the two queries never raise it. -/
def Obligations.HaltedMachineIgnoresAllButReset : Prop :=
  ∀ s : State,
    (s.env.fault = none → s.pd.transportAttached = false →
      exec .pdPoll s = .next { s with env := { s.env with fault := some .transportUnavailable } }) ∧
    (s.env.fault ≠ none →
      (∀ is : List Instr, .envReset ∉ is → execAll is s = .next s) ∧
      (∃ t, exec .envReset s = .next t ∧ t.env.fault = none)) ∧
    (∀ i ∈ [Instr.pdBegin, .pdIsReady, .pdReadIndex], ∃ t, exec i s = .next t ∧ t.env.fault = s.env.fault)

/-- R110, R130 (R130 is an inference of the spec): an operation that raises the fault has changed nothing else, and it is a
poll, or a request while ready, without a transport. An inbound byte row that raises it (log entry 4) has first delivered its
byte to the queue, and nothing else; the row that goes to an index (log entry 5) has first been delivered the index it read. -/
def Obligations.FaultsArePreciseAndOnlyUnattached : Prop :=
  ∀ (i : Instr) (s t : State), s.env.fault = none → exec i s = .next t → t.env.fault ≠ none →
    s.pd.transportAttached = false ∧ (.pdPoll ∈ operationsOf s i ∨ s.pd.linkReady = true) ∧
    ((∀ b, .envRxArrive b ∉ operationsOf s i) → .pdReadIndex ∉ operationsOf s i →
      t = { s with env := { s.env with fault := some .transportUnavailable } }) ∧
    (∀ b, .envRxArrive b ∈ operationsOf s i →
      t = { s with env := { s.env with rx := s.env.rx ++ [b], fault := some .transportUnavailable } }) ∧
    (.pdReadIndex ∈ operationsOf s i →
      t = { s with
        env := { s.env with fault := some .transportUnavailable }
        returns := s.returns ++ [.index s.pd.volumeIndex.toNat] })

/-- R22's matrix over all instructions: each field changes only if one of the operations that the matrix names as its writers
is among the operations the instruction runs (an item row's are log entries 3 to 5), the pins (log entry 12) and the model's own
trace and results (log entries 1, 7) included. Reset, the one operation that writes every column, is in
`Obligations.ResetRestoresEveryField`. -/
def Obligations.FieldsChangeOnlyByTheirWriters : Prop :=
  ∀ (i : Instr) (s t : State), exec i s = .next t → i ≠ .envReset →
    ((∀ p, .qdPhaseEdge p ∉ operationsOf s i) → t.qd.previousState = s.qd.previousState) ∧
    ((∀ p, .qdPhaseEdge p ∉ operationsOf s i) → .qdDrain ∉ operationsOf s i →
      t.qd.accumulatedDelta = s.qd.accumulatedDelta) ∧
    ((∀ l, .qdButtonEdge l ∉ operationsOf s i) → t.qd.buttonState = s.qd.buttonState) ∧
    (.pdBegin ∉ operationsOf s i → t.pd.transportAttached = s.pd.transportAttached) ∧
    (.pdBegin ∉ operationsOf s i → .pdPoll ∉ operationsOf s i → t.pd.linkReady = s.pd.linkReady) ∧
    ((∀ d, .pdVolumeDelta d ∉ operationsOf s i) → t.pd.volumeIndex = s.pd.volumeIndex) ∧
    (.pdPoll ∉ operationsOf s i → (∀ b, .envRxArrive b ∉ operationsOf s i) → t.env.rx = s.env.rx) ∧
    (.pdBegin ∉ operationsOf s i → (∀ d, .pdVolumeDelta d ∉ operationsOf s i) → t.env.tx = s.env.tx) ∧
    (.pdPoll ∉ operationsOf s i → (∀ d, .pdVolumeDelta d ∉ operationsOf s i) →
      t.env.log = s.env.log ∧ t.env.fault = s.env.fault) ∧
    ((∀ p, .qdPhaseEdge p ∉ operationsOf s i) → (∀ l, .qdButtonEdge l ∉ operationsOf s i) → t.env.pins = s.env.pins) ∧
    t.trace = s.trace ∧ (deliversResult i = false → t.returns = s.returns) ∧
    (∃ new, t.env.tx = s.env.tx ++ new) ∧ (∃ new, t.env.log = s.env.log ++ new) ∧
    (∃ new, t.returns = s.returns ++ new)

/-- R5: no operation, event or row writes a parameter or a protocol constant. -/
def Obligations.ParametersAreNeverWritten : Prop :=
  ∀ (i : Instr) (s t : State), exec i s = .next t → t.cfg = s.cfg

/-- R1's last sentence, an inference of the spec: an operation of QD and an operation of PD commute on everything but the order of the returned results, unless the PD
operation raises its fault. -/
def Obligations.UnitsCommute : Prop :=
  ∀ (q p : Instr) (s t : State), isQdOperation q = true → isPdOperation p = true →
    execAll [p, q] s = .next t → t.env.fault = s.env.fault →
    ∃ u, execAll [q, p] s = .next u ∧
      u.cfg = t.cfg ∧ u.qd = t.qd ∧ u.pd = t.pd ∧ u.env = t.env ∧ u.trace = t.trace

/-- R69's totality for the four QD operations. For the others it is the model's choice: a poll or a request without a transport,
and every operation of a halted machine, answers a next state and not the outcome fault (log entry 13; R111 says what state the
fault leaves, and R110 that the machine halts), and the item rows are sequences of operations (log entries 3 to 5). So every
instruction answers a next state in every state. -/
def Obligations.EveryInstructionCompletes : Prop :=
  ∀ (i : Instr) (s : State), ∃ t, exec i s = .next t

/-- The invariant holds after reset, under every admissible configuration and every pin level, and of `State.reset`. -/
def Obligations.InvariantHoldsAtReset : Prop :=
  Inv State.reset ∧ ∀ (c : Config) (p : Pins), c.Ok → Inv (State.resetOf c p)

/-- The invariant of `Inv` (R11, R17, R94, R95, R96, R32) is kept by every step, from every state that meets it. -/
def Obligations.InvariantKeptByEveryStep : Prop :=
  ∀ s t : State, Inv s → step s = .next t → Inv t

/-- Decoding inverts encoding and the other way round: a word decodes to an instruction exactly when the instruction is
well-formed and the word is its encoding, under every configuration. -/
def Obligations.DecodeInvertsEncode : Prop :=
  ∀ (c : Config) (w : TableWord) (i : Instr),
    decode c w = some i ↔ (i.wellFormed c = true ∧ encode c i = w)

/-- A step takes the next word of the trace and runs the instruction it decodes to; a word of no row is refused; with no word
left nothing happens (log entries 1 and 2). -/
def Obligations.StepRunsDecodedInstruction : Prop :=
  (∀ (s : State) (w : TableWord) (rest : List TableWord) (i : Instr),
    s.trace = w :: rest → decode s.cfg w = some i → step s = exec i { s with trace := rest }) ∧
  (∀ (s : State) (w : TableWord) (rest : List TableWord),
    s.trace = w :: rest → decode s.cfg w = none → step s = .refused .malformedWord) ∧
  (∀ s : State, s.trace = [] → step s = .next s)

/-- R3, R35: a run of the machine over the words of well-formed instructions is the instructions one after another, each from
the state the earlier ones left. -/
def Obligations.TraceRunsInOrder : Prop :=
  ∀ (s : State) (is : List Instr), s.trace = [] → (∀ i ∈ is, i.wellFormed s.cfg = true) →
    Host.Core.run core is.length { s with trace := is.map (encode s.cfg) } = execAll is s

/-- R51: each row of the match and mask table, with its operand fields, and no other TRACE40 word decodes. -/
def Obligations.TraceWordsDecodeByMatchAndMask : Prop :=
  ∀ (c : Config) (w : BitVec 40),
    (w &&& 0xFFFFFFFFFC#40 = 0x0000000000#40 → decode c (.trace40 w) = some (.qdPhaseEdge (w.extractLsb' 0 2))) ∧
    (w &&& 0xFFFFFFFFFE#40 = 0x0100000000#40 → decode c (.trace40 w) = some (.qdButtonEdge (w.getLsbD 0))) ∧
    (w &&& 0xFFFFFFFFFF#40 = 0x0200000000#40 → decode c (.trace40 w) = some .qdDrain) ∧
    (w &&& 0xFFFFFFFFFF#40 = 0x0300000000#40 → decode c (.trace40 w) = some .qdReadButton) ∧
    (w &&& 0xFFFFFFFFFF#40 = 0x0400000000#40 → decode c (.trace40 w) = some .pdBegin) ∧
    (w &&& 0xFFFFFFFFFF#40 = 0x0500000000#40 → decode c (.trace40 w) = some .pdPoll) ∧
    (w &&& 0xFFFFFFFFFF#40 = 0x0600000000#40 → decode c (.trace40 w) = some .pdIsReady) ∧
    (w &&& 0xFF00000000#40 = 0x0700000000#40 → decode c (.trace40 w) = some (.pdVolumeDelta (w.extractLsb' 0 32))) ∧
    (w &&& 0xFFFFFFFFFF#40 = 0x0800000000#40 → decode c (.trace40 w) = some .pdReadIndex) ∧
    (w &&& 0xFFFFFFFF00#40 = 0x0E00000000#40 → decode c (.trace40 w) = some (.envRxArrive (w.extractLsb' 0 8))) ∧
    (w &&& 0xFFFFFFFFFF#40 = 0x0F00000000#40 → decode c (.trace40 w) = some .envReset) ∧
    ((∀ r ∈ traceRows, w &&& r.2 ≠ r.1) → decode c (.trace40 w) = none)

/-- R57: the reserved selectors 0x9 to 0xD and a nonzero top nibble are refused, whatever the other bits. -/
def Obligations.ReservedSelectorsAreRefused : Prop :=
  ∀ (s : State) (w : BitVec 40) (rest : List TableWord), s.trace = .trace40 w :: rest →
    (w.extractLsb' 36 4 ≠ 0#4 ∨ (0x9#4 ≤ w.extractLsb' 32 4 ∧ w.extractLsb' 32 4 ≤ 0xD#4)) →
    step s = .refused .malformedWord

/-- Words written out from the spec's encodings decode to the instructions they stand for (`30_encoding.md` R51, R47, R56;
`95_test_vectors.md`). Two clauses rest on choices of the model: that the 8-bit number 0b0010 is a table index, where R56 alone
would make the byte 0x02 RX_OTHER (log entry 6), and that 0xFB is RX_READY_MARKER whatever BLOB_MARKER is (log entry 14). -/
def Obligations.SpecWordsDecode : Prop :=
  decodeTableWord 40 0x0000000002 = some (.qdPhaseEdge 0b10#2) ∧
  decodeTableWord 40 0x0100000001 = some (.qdButtonEdge true) ∧
  decodeTableWord 40 0x0500000000 = some .pdPoll ∧
  decodeTableWord 40 0x07FFFFFFFB = some (.pdVolumeDelta (BitVec.ofInt 32 (-5))) ∧
  decodeTableWord 40 0x0E000000AF = some (.envRxArrive 0xAF#8) ∧
  decodeTableWord 40 0x0F00000000 = some .envReset ∧
  decodeTableWord 8 0b0010 = some .tt0010 ∧
  decodeTableWord 8 0xFB = some .rxReadyMarker ∧
  decodeTableWord 40 0x0900000000 = none

/-- A table row, `TURN p c` (log entry 3), runs through its entry: from any state it ends in `c` with the step from the old state
to `p` and then the entry R48 prints added; from `p` itself the entry alone is added. Nothing else changes but the two phase
pins (log entry 12). -/
def Obligations.TableRowsRunThroughTheirEntry : Prop :=
  ∀ r ∈ tableRows, ∀ s : State, s.env.fault = none →
    exec r.1 s = .next { s with
      qd := { s.qd with
        accumulatedDelta := sat s.cfg.accWidth
          (sat s.cfg.accWidth (s.qd.accumulatedDelta + printedTable s.qd.previousState r.2.1) + r.2.2.2)
        previousState := r.2.2.1 }
      env := { s.env with pins := { s.env.pins with a := r.2.2.1.getLsbD 1, b := r.2.2.1.getLsbD 0 } } } ∧
    (s.qd.previousState = r.2.1 → AccInRange s.cfg s.qd.accumulatedDelta →
      exec r.1 s = .next { s with
        qd := { s.qd with
          accumulatedDelta := sat s.cfg.accWidth (s.qd.accumulatedDelta + r.2.2.2)
          previousState := r.2.2.1 }
        env := { s.env with pins := { s.env.pins with a := r.2.2.1.getLsbD 1, b := r.2.2.1.getLsbD 0 } } })

/-- An inbound byte row, `FEED b` (log entry 4): the byte joins the queue; attached, the poll scans all the bytes available, this
one last, and empties the queue; without a transport the poll faults and the byte stays queued (R100, R86). With one byte for
both markers, the blob row and the ready row do the same (R56). -/
def Obligations.InboundByteRowsScanTheirByte : Prop :=
  ∀ (i : Instr) (s : State) (b : Byte), s.env.fault = none →
    (i = .rxReadyMarker ∧ b = 0xFB#8) ∨ (i = .rxBlobMarker ∧ b = s.cfg.blobMarker) ∨ i = .rxOther b →
    (s.pd.transportAttached = true →
      exec i s = .next { s with
        pd := { s.pd with linkReady := s.pd.linkReady || (s.env.rx ++ [b]).contains 0xFB#8 }
        env := { s.env with rx := [], log := s.env.log ++ blobEvents s.cfg (s.env.rx ++ [b]) } }) ∧
    (s.pd.transportAttached = false →
      exec i s = .next { s with env := { s.env with rx := s.env.rx ++ [b], fault := some .transportUnavailable } })

/-- The outbound frame rows: the handshake row is PD_BEGIN, which sends it; the command row reads the index, which is delivered as
a result, and requests the difference: with a legal index, ready and attached, it sets the index and sends that frame; ready
without a transport it raises the fault; not ready, the request of that many clicks is dropped (R52, R53, R85, R89, R90; the rows
as instructions are log entry 5). -/
def Obligations.OutboundFrameRowsSendTheirFrame : Prop :=
  ∀ (s : State) (x : Byte), s.env.fault = none → s.cfg.Ok →
    exec .txHsInit s = .next { s with
      pd := { s.pd with transportAttached := true, linkReady := false }
      env := { s.env with tx := s.env.tx ++ [s.cfg.hsInit.toList] } } ∧
    (x.toNat ≤ 2 * s.cfg.steps → s.pd.linkReady = true → s.pd.transportAttached = true →
      exec (.txVolumeCmd x) s = .next { s with
        pd := { s.pd with volumeIndex := x }
        env := { s.env with tx := s.env.tx ++ [commandFrame s.cfg x] }
        returns := s.returns ++ [.index s.pd.volumeIndex.toNat] }) ∧
    (s.pd.linkReady = true → s.pd.transportAttached = false →
      exec (.txVolumeCmd x) s = .next { s with
        env := { s.env with fault := some .transportUnavailable }
        returns := s.returns ++ [.index s.pd.volumeIndex.toNat] }) ∧
    (s.pd.linkReady = false →
      exec (.txVolumeCmd x) s = .next { s with
        env := { s.env with log := s.env.log ++ [.dropNotReady ((x.toNat : Int) - (s.pd.volumeIndex.toNat : Int))] }
        returns := s.returns ++ [.index s.pd.volumeIndex.toNat] })

/-- R2, R22's opening words, R87's "not invocable from outside": every instruction is a sequence of the nine operations and two
events, each of which is the sequence of itself alone, and nothing else reads or writes the state. Which sequence an item row
stands for is the model's choice (log entries 3 to 5). -/
def Obligations.RowsRunOnlyOperations : Prop :=
  ∀ (i : Instr) (s : State),
    (∀ o ∈ operationsOf s i, isOperation o = true) ∧
    (isOperation i = true → operationsOf s i = [i]) ∧
    exec i s = execAll (operationsOf s i) s
end

