-- ==== Sys2Proof/Laws/Arithmetic.lean ====
section
/-! SUPPORT. The clamp, the saturation, the index byte, the table's range and the frame's shape. -/

namespace Sys2Proof.Machine

theorem clamp_of_mem {v lo hi : Int} (h : lo ≤ v) (h' : v ≤ hi) : clamp v lo hi = v := by
  unfold clamp; split <;> [omega; (split <;> omega)]

theorem clamp_mem {v lo hi : Int} (h : lo ≤ hi) : lo ≤ clamp v lo hi ∧ clamp v lo hi ≤ hi := by
  unfold clamp; split <;> [omega; (split <;> omega)]

theorem clamp_eq_max_min (v lo hi : Int) (h : lo ≤ hi) : clamp v lo hi = max lo (min v hi) := by
  unfold clamp; split <;> [omega; (split <;> omega)]

theorem accMin_le_accMax (w : Nat) : accMin w ≤ accMax w := by
  have : 0 < 2 ^ (w - 1) := Nat.pos_of_ne_zero (by simp)
  unfold accMin accMax; omega

/-- A finite accumulator holds at least the steps -1, 0 and +1. -/
theorem step_in_range {w : Nat} (hw : 2 ≤ w) : accMin w ≤ -1 ∧ 1 ≤ accMax w := by
  have : 2 ^ 1 ≤ 2 ^ (w - 1) := Nat.pow_le_pow_right (by omega) (by omega)
  unfold accMin accMax; omega

theorem sat_of_mem {o : Option Nat} {v : Int} (h : ∀ w ∈ o, accMin w ≤ v ∧ v ≤ accMax w) : sat o v = v := by
  cases o with
  | none => rfl
  | some w => exact clamp_of_mem (h w rfl).1 (h w rfl).2

theorem sat_mem {o : Option Nat} (v : Int) : ∀ w ∈ o, accMin w ≤ sat o v ∧ sat o v ≤ accMax w := by
  rintro w rfl
  exact clamp_mem (accMin_le_accMax w)

/-- The index a request leaves is the exact clamp: the byte drops nothing when STEPS is admissible (`00_scope.md` R4). -/
theorem indexByte_clampedIndex {steps : Nat} (h : steps ≤ 127) (i : Byte) (d : Int) :
    ((indexByte (clampedIndex steps i d)).toNat : Int) = clampedIndex steps i d := by
  have := clamp_mem (v := (i.toNat : Int) + d) (lo := 0) (hi := 2 * (steps : Int)) (by omega)
  unfold indexByte
  rw [BitVec.toNat_ofNat]
  unfold clampedIndex at *
  omega

/-- A legal index stays what it is. -/
theorem indexByte_of_mem {steps : Nat} {x : Byte} (h : x.toNat ≤ 2 * steps) (i : Byte) :
    indexByte (clampedIndex steps i ((x.toNat : Int) - (i.toNat : Int))) = x := by
  have hx : clampedIndex steps i ((x.toNat : Int) - (i.toNat : Int)) = x.toNat := by
    unfold clampedIndex
    rw [clamp_of_mem] <;> omega
  rw [hx, indexByte, Int.toNat_natCast, BitVec.ofNat_toNat, BitVec.setWidth_eq]

/-- Two bytes differ by a number 32 bits hold exactly. -/
theorem toInt_ofInt_sub (x y : Byte) :
    (BitVec.ofInt 32 ((x.toNat : Int) - (y.toNat : Int))).toInt = (x.toNat : Int) - (y.toNat : Int) := by
  have := x.isLt
  have := y.isLt
  rw [BitVec.toInt_ofInt]
  exact Int.bmod_eq_of_le (by omega) (by omega)

theorem tableStep_mem : ∀ p c : PinState, -1 ≤ tableStep p c ∧ tableStep p c ≤ 1 := by decide

theorem commandFrame_eq (c : Config) (x : Byte) :
    commandFrame c x = [c.cmdHdr.f0, c.cmdHdr.f1, c.cmdHdr.f2, c.cmdHdr.p0, c.cmdHdr.p1, c.cmdHdr.cc, x,
      sum8 [c.cmdHdr.f0, c.cmdHdr.f1, c.cmdHdr.f2, c.cmdHdr.p0, c.cmdHdr.p1, c.cmdHdr.cc, x]] := rfl

theorem handshakeFrame_length (c : Config) : (handshakeFrame c).length = 7 := by simp [handshakeFrame]

end Sys2Proof.Machine
end

