-- ==== Sys2Proof/Laws/Decode.lean ====
section
/-! SUPPORT. The fields of a TRACE40 word and of its argument, read back from the word that was put together. -/

namespace Sys2Proof

/-- A word's three fields, concatenated. -/
theorem trace_fields (w : BitVec 40) :
    (w.extractLsb' 36 4 ++ w.extractLsb' 32 4) ++ w.extractLsb' 0 32 = w := by
  ext i hi
  simp
  grind

@[simp] theorem trace_zero (z op : BitVec 4) (arg : BitVec 32) :
    ((z ++ op) ++ arg : BitVec 40).extractLsb' 36 4 = z := by
  ext i hi
  simp
  grind

@[simp] theorem trace_op (z op : BitVec 4) (arg : BitVec 32) :
    ((z ++ op) ++ arg : BitVec 40).extractLsb' 32 4 = op := by
  ext i hi
  simp
  grind

@[simp] theorem trace_arg (z op : BitVec 4) (arg : BitVec 32) :
    ((z ++ op) ++ arg : BitVec 40).extractLsb' 0 32 = arg := by
  ext i hi
  simp
  grind

/-- Masking a word is masking its three fields. -/
theorem trace_mask (z mz op mop : BitVec 4) (arg marg : BitVec 32) :
    ((z ++ op) ++ arg : BitVec 40) &&& ((mz ++ mop) ++ marg) = ((z &&& mz) ++ (op &&& mop)) ++ (arg &&& marg) := by
  rw [BitVec.and_append, BitVec.and_append]

/-- What the decoder reads from the word of a selector and an argument. -/
theorem decodeTrace_word (op : BitVec 4) (arg : BitVec 32) :
    decodeTrace ((0#4 ++ op) ++ arg) =
      match op.toNat with
      | 0x0 => if arg.extractLsb' 2 30 = 0#30 then some (.qdPhaseEdge (arg.extractLsb' 0 2)) else none
      | 0x1 => if arg.extractLsb' 1 31 = 0#31 then some (.qdButtonEdge (arg.getLsbD 0)) else none
      | 0x2 => if arg = 0#32 then some .qdDrain else none
      | 0x3 => if arg = 0#32 then some .qdReadButton else none
      | 0x4 => if arg = 0#32 then some .pdBegin else none
      | 0x5 => if arg = 0#32 then some .pdPoll else none
      | 0x6 => if arg = 0#32 then some .pdIsReady else none
      | 0x7 => some (.pdVolumeDelta arg)
      | 0x8 => if arg = 0#32 then some .pdReadIndex else none
      | 0xE => if arg.extractLsb' 8 24 = 0#24 then some (.envRxArrive (arg.extractLsb' 0 8)) else none
      | 0xF => if arg = 0#32 then some .envReset else none
      | _   => none := by
  unfold decodeTrace
  rw [trace_zero, trace_op, trace_arg]
  rfl

/-- An argument split below bit `n`: the must-be-zero part and the field. -/
theorem arg_split2 (a : BitVec 32) : a.extractLsb' 2 30 ++ a.extractLsb' 0 2 = a := by
  ext i hi; simp; grind
theorem arg_split1 (a : BitVec 32) : a.extractLsb' 1 31 ++ BitVec.ofBool (a.getLsbD 0) = a := by
  ext i hi; simp; grind
theorem arg_split8 (a : BitVec 32) : a.extractLsb' 8 24 ++ a.extractLsb' 0 8 = a := by
  ext i hi; simp; grind

@[simp] theorem arg_high2 (z : BitVec 30) (v : BitVec 2) : (z ++ v : BitVec 32).extractLsb' 2 30 = z := by
  ext i hi; simp; grind
@[simp] theorem arg_low2 (z : BitVec 30) (v : BitVec 2) : (z ++ v : BitVec 32).extractLsb' 0 2 = v := by
  ext i hi; simp; grind
@[simp] theorem arg_high8 (z : BitVec 24) (v : BitVec 8) : (z ++ v : BitVec 32).extractLsb' 8 24 = z := by
  ext i hi; simp; grind
@[simp] theorem arg_low8 (z : BitVec 24) (v : BitVec 8) : (z ++ v : BitVec 32).extractLsb' 0 8 = v := by
  ext i hi; simp; grind
@[simp] theorem arg_high1 (z : BitVec 31) (b : Bool) : (z ++ BitVec.ofBool b : BitVec 32).extractLsb' 1 31 = z := by
  ext i hi; simp; grind
theorem arg_low1 (z : BitVec 31) (b : Bool) : (z ++ BitVec.ofBool b : BitVec 32).getLsbD 0 = b := by
  rw [BitVec.getLsbD_append]
  cases b <;> rfl

end Sys2Proof
end

