-- ==== Sys2Proof/Laws/State.lean ====
section
/-! SUPPORT. One lemma per field per update of State, so that no later proof unfolds a record update. A unit an update does
not touch is covered whole (`(s.setLinkReady v).qd = s.qd`). -/

namespace Sys2Proof.Machine

variable (s : State)

section
variable (v : PinState)
@[simp] theorem State.setPreviousState_cfg : (s.setPreviousState v).cfg = s.cfg := rfl
@[simp] theorem State.setPreviousState_previousState : (s.setPreviousState v).qd.previousState = v := rfl
@[simp] theorem State.setPreviousState_accumulatedDelta : (s.setPreviousState v).qd.accumulatedDelta = s.qd.accumulatedDelta := rfl
@[simp] theorem State.setPreviousState_buttonState : (s.setPreviousState v).qd.buttonState = s.qd.buttonState := rfl
@[simp] theorem State.setPreviousState_pd : (s.setPreviousState v).pd = s.pd := rfl
@[simp] theorem State.setPreviousState_env : (s.setPreviousState v).env = s.env := rfl
@[simp] theorem State.setPreviousState_trace : (s.setPreviousState v).trace = s.trace := rfl
@[simp] theorem State.setPreviousState_returns : (s.setPreviousState v).returns = s.returns := rfl
end

section
variable (v : Int)
@[simp] theorem State.setAccumulatedDelta_cfg : (s.setAccumulatedDelta v).cfg = s.cfg := rfl
@[simp] theorem State.setAccumulatedDelta_previousState : (s.setAccumulatedDelta v).qd.previousState = s.qd.previousState := rfl
@[simp] theorem State.setAccumulatedDelta_accumulatedDelta : (s.setAccumulatedDelta v).qd.accumulatedDelta = v := rfl
@[simp] theorem State.setAccumulatedDelta_buttonState : (s.setAccumulatedDelta v).qd.buttonState = s.qd.buttonState := rfl
@[simp] theorem State.setAccumulatedDelta_pd : (s.setAccumulatedDelta v).pd = s.pd := rfl
@[simp] theorem State.setAccumulatedDelta_env : (s.setAccumulatedDelta v).env = s.env := rfl
@[simp] theorem State.setAccumulatedDelta_trace : (s.setAccumulatedDelta v).trace = s.trace := rfl
@[simp] theorem State.setAccumulatedDelta_returns : (s.setAccumulatedDelta v).returns = s.returns := rfl
end

section
variable (v : Bool)
@[simp] theorem State.setButtonState_cfg : (s.setButtonState v).cfg = s.cfg := rfl
@[simp] theorem State.setButtonState_previousState : (s.setButtonState v).qd.previousState = s.qd.previousState := rfl
@[simp] theorem State.setButtonState_accumulatedDelta : (s.setButtonState v).qd.accumulatedDelta = s.qd.accumulatedDelta := rfl
@[simp] theorem State.setButtonState_buttonState : (s.setButtonState v).qd.buttonState = v := rfl
@[simp] theorem State.setButtonState_pd : (s.setButtonState v).pd = s.pd := rfl
@[simp] theorem State.setButtonState_env : (s.setButtonState v).env = s.env := rfl
@[simp] theorem State.setButtonState_trace : (s.setButtonState v).trace = s.trace := rfl
@[simp] theorem State.setButtonState_returns : (s.setButtonState v).returns = s.returns := rfl
end

section
variable (v : Bool)
@[simp] theorem State.setTransportAttached_cfg : (s.setTransportAttached v).cfg = s.cfg := rfl
@[simp] theorem State.setTransportAttached_qd : (s.setTransportAttached v).qd = s.qd := rfl
@[simp] theorem State.setTransportAttached_transportAttached : (s.setTransportAttached v).pd.transportAttached = v := rfl
@[simp] theorem State.setTransportAttached_linkReady : (s.setTransportAttached v).pd.linkReady = s.pd.linkReady := rfl
@[simp] theorem State.setTransportAttached_volumeIndex : (s.setTransportAttached v).pd.volumeIndex = s.pd.volumeIndex := rfl
@[simp] theorem State.setTransportAttached_env : (s.setTransportAttached v).env = s.env := rfl
@[simp] theorem State.setTransportAttached_trace : (s.setTransportAttached v).trace = s.trace := rfl
@[simp] theorem State.setTransportAttached_returns : (s.setTransportAttached v).returns = s.returns := rfl
end

section
variable (v : Bool)
@[simp] theorem State.setLinkReady_cfg : (s.setLinkReady v).cfg = s.cfg := rfl
@[simp] theorem State.setLinkReady_qd : (s.setLinkReady v).qd = s.qd := rfl
@[simp] theorem State.setLinkReady_transportAttached : (s.setLinkReady v).pd.transportAttached = s.pd.transportAttached := rfl
@[simp] theorem State.setLinkReady_linkReady : (s.setLinkReady v).pd.linkReady = v := rfl
@[simp] theorem State.setLinkReady_volumeIndex : (s.setLinkReady v).pd.volumeIndex = s.pd.volumeIndex := rfl
@[simp] theorem State.setLinkReady_env : (s.setLinkReady v).env = s.env := rfl
@[simp] theorem State.setLinkReady_trace : (s.setLinkReady v).trace = s.trace := rfl
@[simp] theorem State.setLinkReady_returns : (s.setLinkReady v).returns = s.returns := rfl
end

section
variable (v : Byte)
@[simp] theorem State.setVolumeIndex_cfg : (s.setVolumeIndex v).cfg = s.cfg := rfl
@[simp] theorem State.setVolumeIndex_qd : (s.setVolumeIndex v).qd = s.qd := rfl
@[simp] theorem State.setVolumeIndex_transportAttached : (s.setVolumeIndex v).pd.transportAttached = s.pd.transportAttached := rfl
@[simp] theorem State.setVolumeIndex_linkReady : (s.setVolumeIndex v).pd.linkReady = s.pd.linkReady := rfl
@[simp] theorem State.setVolumeIndex_volumeIndex : (s.setVolumeIndex v).pd.volumeIndex = v := rfl
@[simp] theorem State.setVolumeIndex_env : (s.setVolumeIndex v).env = s.env := rfl
@[simp] theorem State.setVolumeIndex_trace : (s.setVolumeIndex v).trace = s.trace := rfl
@[simp] theorem State.setVolumeIndex_returns : (s.setVolumeIndex v).returns = s.returns := rfl
end

section
variable (v : Pins)
@[simp] theorem State.setPins_cfg : (s.setPins v).cfg = s.cfg := rfl
@[simp] theorem State.setPins_qd : (s.setPins v).qd = s.qd := rfl
@[simp] theorem State.setPins_pd : (s.setPins v).pd = s.pd := rfl
@[simp] theorem State.setPins_pins : (s.setPins v).env.pins = v := rfl
@[simp] theorem State.setPins_rx : (s.setPins v).env.rx = s.env.rx := rfl
@[simp] theorem State.setPins_tx : (s.setPins v).env.tx = s.env.tx := rfl
@[simp] theorem State.setPins_log : (s.setPins v).env.log = s.env.log := rfl
@[simp] theorem State.setPins_fault : (s.setPins v).env.fault = s.env.fault := rfl
@[simp] theorem State.setPins_trace : (s.setPins v).trace = s.trace := rfl
@[simp] theorem State.setPins_returns : (s.setPins v).returns = s.returns := rfl
end

section
variable (v : List Byte)
@[simp] theorem State.setRx_cfg : (s.setRx v).cfg = s.cfg := rfl
@[simp] theorem State.setRx_qd : (s.setRx v).qd = s.qd := rfl
@[simp] theorem State.setRx_pd : (s.setRx v).pd = s.pd := rfl
@[simp] theorem State.setRx_pins : (s.setRx v).env.pins = s.env.pins := rfl
@[simp] theorem State.setRx_rx : (s.setRx v).env.rx = v := rfl
@[simp] theorem State.setRx_tx : (s.setRx v).env.tx = s.env.tx := rfl
@[simp] theorem State.setRx_log : (s.setRx v).env.log = s.env.log := rfl
@[simp] theorem State.setRx_fault : (s.setRx v).env.fault = s.env.fault := rfl
@[simp] theorem State.setRx_trace : (s.setRx v).trace = s.trace := rfl
@[simp] theorem State.setRx_returns : (s.setRx v).returns = s.returns := rfl
end

section
variable (v : List Frame)
@[simp] theorem State.setTx_cfg : (s.setTx v).cfg = s.cfg := rfl
@[simp] theorem State.setTx_qd : (s.setTx v).qd = s.qd := rfl
@[simp] theorem State.setTx_pd : (s.setTx v).pd = s.pd := rfl
@[simp] theorem State.setTx_pins : (s.setTx v).env.pins = s.env.pins := rfl
@[simp] theorem State.setTx_rx : (s.setTx v).env.rx = s.env.rx := rfl
@[simp] theorem State.setTx_tx : (s.setTx v).env.tx = v := rfl
@[simp] theorem State.setTx_log : (s.setTx v).env.log = s.env.log := rfl
@[simp] theorem State.setTx_fault : (s.setTx v).env.fault = s.env.fault := rfl
@[simp] theorem State.setTx_trace : (s.setTx v).trace = s.trace := rfl
@[simp] theorem State.setTx_returns : (s.setTx v).returns = s.returns := rfl
end

section
variable (v : List LogEvent)
@[simp] theorem State.setLog_cfg : (s.setLog v).cfg = s.cfg := rfl
@[simp] theorem State.setLog_qd : (s.setLog v).qd = s.qd := rfl
@[simp] theorem State.setLog_pd : (s.setLog v).pd = s.pd := rfl
@[simp] theorem State.setLog_pins : (s.setLog v).env.pins = s.env.pins := rfl
@[simp] theorem State.setLog_rx : (s.setLog v).env.rx = s.env.rx := rfl
@[simp] theorem State.setLog_tx : (s.setLog v).env.tx = s.env.tx := rfl
@[simp] theorem State.setLog_log : (s.setLog v).env.log = v := rfl
@[simp] theorem State.setLog_fault : (s.setLog v).env.fault = s.env.fault := rfl
@[simp] theorem State.setLog_trace : (s.setLog v).trace = s.trace := rfl
@[simp] theorem State.setLog_returns : (s.setLog v).returns = s.returns := rfl
end

section
variable (v : Option FaultKind)
@[simp] theorem State.setFault_cfg : (s.setFault v).cfg = s.cfg := rfl
@[simp] theorem State.setFault_qd : (s.setFault v).qd = s.qd := rfl
@[simp] theorem State.setFault_pd : (s.setFault v).pd = s.pd := rfl
@[simp] theorem State.setFault_pins : (s.setFault v).env.pins = s.env.pins := rfl
@[simp] theorem State.setFault_rx : (s.setFault v).env.rx = s.env.rx := rfl
@[simp] theorem State.setFault_tx : (s.setFault v).env.tx = s.env.tx := rfl
@[simp] theorem State.setFault_log : (s.setFault v).env.log = s.env.log := rfl
@[simp] theorem State.setFault_fault : (s.setFault v).env.fault = v := rfl
@[simp] theorem State.setFault_trace : (s.setFault v).trace = s.trace := rfl
@[simp] theorem State.setFault_returns : (s.setFault v).returns = s.returns := rfl
end

section
variable (v : List TableWord)
@[simp] theorem State.setTrace_cfg : (s.setTrace v).cfg = s.cfg := rfl
@[simp] theorem State.setTrace_qd : (s.setTrace v).qd = s.qd := rfl
@[simp] theorem State.setTrace_pd : (s.setTrace v).pd = s.pd := rfl
@[simp] theorem State.setTrace_env : (s.setTrace v).env = s.env := rfl
@[simp] theorem State.setTrace_trace : (s.setTrace v).trace = v := rfl
@[simp] theorem State.setTrace_returns : (s.setTrace v).returns = s.returns := rfl
end

section
variable (v : List Result)
@[simp] theorem State.setReturns_cfg : (s.setReturns v).cfg = s.cfg := rfl
@[simp] theorem State.setReturns_qd : (s.setReturns v).qd = s.qd := rfl
@[simp] theorem State.setReturns_pd : (s.setReturns v).pd = s.pd := rfl
@[simp] theorem State.setReturns_env : (s.setReturns v).env = s.env := rfl
@[simp] theorem State.setReturns_trace : (s.setReturns v).trace = s.trace := rfl
@[simp] theorem State.setReturns_returns : (s.setReturns v).returns = v := rfl
end

/-- A state is its six components. -/
theorem State.eq_of_parts {s t : State} (hc : t.cfg = s.cfg) (hq : t.qd = s.qd) (hp : t.pd = s.pd) (he : t.env = s.env)
    (ht : t.trace = s.trace) (hr : t.returns = s.returns) : t = s := by
  cases s; cases t; simp_all

end Sys2Proof.Machine
end

