-- ==== Sys2Proof/Laws/Ops.lean ====
section
/-! SUPPORT. What each shared operation can do, said once: the guards, the fault, the platform primitives, fetching. -/

namespace Sys2Proof.Machine

/-- An outcome that is a next state gives that state. -/
theorem next_inj {s t : State} : (Host.Outcome.next s : Host.Outcome State Fault Refusal) = .next t ↔ s = t :=
  ⟨fun h => by cases h; rfl, fun h => by rw [h]⟩

@[simp] theorem whenRunning_running {s : State} (h : s.env.fault = none) (k : Host.Outcome State Fault Refusal) :
    whenRunning s k = k := if_pos h

@[simp] theorem whenRunning_halted {s : State} (h : s.env.fault ≠ none) (k : Host.Outcome State Fault Refusal) :
    whenRunning s k = .next s := if_neg h

/-- All the halt check can do. -/
theorem whenRunning_cases {s t : State} {k : Host.Outcome State Fault Refusal} (h : whenRunning s k = .next t) :
    (s.env.fault ≠ none ∧ t = s) ∨ (s.env.fault = none ∧ k = .next t) := by
  by_cases hf : s.env.fault = none
  · exact .inr ⟨hf, by rwa [whenRunning_running hf] at h⟩
  · rw [whenRunning_halted hf] at h
    exact .inl ⟨hf, (next_inj.mp h).symm⟩

theorem requireTransport_attached {s : State} (h : s.pd.transportAttached = true)
    (k : Host.Outcome State Fault Refusal) : requireTransport s k = k := if_pos h

theorem requireTransport_detached {s : State} (h : s.pd.transportAttached = false)
    (k : Host.Outcome State Fault Refusal) :
    requireTransport s k = .next (s.setFault (some .transportUnavailable)) := by
  simp [requireTransport, raiseFault, h]

/-- All the transport precondition can do. -/
theorem requireTransport_cases {s t : State} {k : Host.Outcome State Fault Refusal} (h : requireTransport s k = .next t) :
    (s.pd.transportAttached = false ∧ t = s.setFault (some .transportUnavailable)) ∨
    (s.pd.transportAttached = true ∧ k = .next t) := by
  cases ha : s.pd.transportAttached with
  | false => rw [requireTransport_detached ha] at h; exact .inl ⟨rfl, (next_inj.mp h).symm⟩
  | true => rw [requireTransport_attached ha] at h; exact .inr ⟨rfl, h⟩

@[simp] theorem andThen_next (t : State) (k : State → Host.Outcome State Fault Refusal) :
    andThen (.next t) k = k t := rfl

/-- All two operations in order can do. -/
theorem andThen_cases {o : Host.Outcome State Fault Refusal} {k : State → Host.Outcome State Fault Refusal} {t : State}
    (h : andThen o k = .next t) : ∃ u, o = .next u ∧ k u = .next t := by
  cases o with
  | next u => exact ⟨u, rfl, h⟩
  | fault r => cases h
  | refused r => cases h

/-- A result delivered changes the results and nothing else. -/
@[simp] theorem returnValue_cfg (r : Result) (s : State) : (returnValue r s).cfg = s.cfg := rfl
@[simp] theorem returnValue_qd (r : Result) (s : State) : (returnValue r s).qd = s.qd := rfl
@[simp] theorem returnValue_pd (r : Result) (s : State) : (returnValue r s).pd = s.pd := rfl
@[simp] theorem returnValue_env (r : Result) (s : State) : (returnValue r s).env = s.env := rfl
@[simp] theorem returnValue_trace (r : Result) (s : State) : (returnValue r s).trace = s.trace := rfl
@[simp] theorem returnValue_returns (r : Result) (s : State) : (returnValue r s).returns = s.returns ++ [r] := rfl

/-- The handler samples the levels the trace gives, whatever the pins held before. -/
@[simp] theorem samplePhasePins_drive (p : PinState) (s : State) : samplePhasePins (drivePhasePins p s) = p := by
  have : ∀ q : PinState, pinState (phaseA q) (phaseB q) = q := by decide
  exact this p

/-- What `fetch` finds, case by case on the trace. -/
theorem fetch_nil {s : State} (h : s.trace = []) : fetch s = .nothing := by simp [fetch, h]

theorem fetch_malformed {s : State} {w : TableWord} {rest : List TableWord} (h : s.trace = w :: rest)
    (hd : decode s.cfg w = none) : fetch s = .malformed := by simp [fetch, h, hd]

theorem fetch_run {s : State} {w : TableWord} {rest : List TableWord} {i : Instr} (h : s.trace = w :: rest)
    (hd : decode s.cfg w = some i) : fetch s = .run i (s.setTrace rest) := by simp [fetch, h, hd]

/-- All `step` can do when it answers a next state: nothing, or one instruction from the state its word was taken from. -/
theorem step_cases {s t : State} (h : step s = .next t) :
    (s.trace = [] ∧ t = s) ∨
    ∃ w rest i, s.trace = w :: rest ∧ decode s.cfg w = some i ∧ exec i (s.setTrace rest) = .next t := by
  cases ht : s.trace with
  | nil => exact .inl ⟨rfl, by rw [step, fetch_nil ht] at h; exact (next_inj.mp h).symm⟩
  | cons w rest =>
    cases hd : decode s.cfg w with
    | none => rw [step, fetch_malformed ht hd] at h; cases h
    | some i => exact .inr ⟨w, rest, i, rfl, hd, by rwa [step, fetch_run ht hd] at h⟩

end Sys2Proof.Machine
end

