-- ==== Sys2Proof/Laws/PerInstr.lean ====
section
/-! SUPPORT. Per-instruction lemmas about the syntax. Family TableRow: the encoder's word of an instruction has the format,
the match and mask, the index, or the length that spec/opcode_table.json gives the instruction's row. -/

namespace Sys2Proof.Laws.TableRow

open Sys2Proof

/-- What the table says of a row's words. -/
inductive Row where
  | trace (hit mask : BitVec 40)
  | index (p c : PinState)
  | byte
  | frame (bytes : Nat)

/-- The row of each instruction, copied from spec/opcode_table.json. -/
def rowOf : Instr → Row
  | .qdPhaseEdge _   => .trace 0x0000000000#40 0xFFFFFFFFFC#40
  | .qdButtonEdge _  => .trace 0x0100000000#40 0xFFFFFFFFFE#40
  | .qdDrain         => .trace 0x0200000000#40 0xFFFFFFFFFF#40
  | .qdReadButton    => .trace 0x0300000000#40 0xFFFFFFFFFF#40
  | .pdBegin         => .trace 0x0400000000#40 0xFFFFFFFFFF#40
  | .pdPoll          => .trace 0x0500000000#40 0xFFFFFFFFFF#40
  | .pdIsReady       => .trace 0x0600000000#40 0xFFFFFFFFFF#40
  | .pdVolumeDelta _ => .trace 0x0700000000#40 0xFF00000000#40
  | .pdReadIndex     => .trace 0x0800000000#40 0xFFFFFFFFFF#40
  | .envRxArrive _   => .trace 0x0E00000000#40 0xFFFFFFFF00#40
  | .envReset        => .trace 0x0F00000000#40 0xFFFFFFFFFF#40
  | .tt0000          => .index 0b00#2 0b00#2
  | .tt0001          => .index 0b00#2 0b01#2
  | .tt0010          => .index 0b00#2 0b10#2
  | .tt0011          => .index 0b00#2 0b11#2
  | .tt0100          => .index 0b01#2 0b00#2
  | .tt0101          => .index 0b01#2 0b01#2
  | .tt0110          => .index 0b01#2 0b10#2
  | .tt0111          => .index 0b01#2 0b11#2
  | .tt1000          => .index 0b10#2 0b00#2
  | .tt1001          => .index 0b10#2 0b01#2
  | .tt1010          => .index 0b10#2 0b10#2
  | .tt1011          => .index 0b10#2 0b11#2
  | .tt1100          => .index 0b11#2 0b00#2
  | .tt1101          => .index 0b11#2 0b01#2
  | .tt1110          => .index 0b11#2 0b10#2
  | .tt1111          => .index 0b11#2 0b11#2
  | .rxReadyMarker | .rxBlobMarker | .rxOther _ => .byte
  | .txHsInit        => .frame 7
  | .txVolumeCmd _   => .frame 8

/-- A word of a row. -/
def fits : Row → TableWord → Prop
  | .trace hit mask, .trace40 w => w &&& mask = hit
  | .index p c, .ttIndex i      => i = p ++ c
  | .byte, .rxByte _            => True
  | .frame n, .txFrame bs       => bs.length = n
  | _, _                        => False

def Statement (i : Instr) : Prop := ∀ c : Config, fits (rowOf i) (encode c i)

theorem qdPhaseEdge (sample : PinState) : Statement (.qdPhaseEdge sample) := by
  intro c
  have : ∀ v : BitVec 2, ((0#4 ++ 0x0#4) ++ (0#30 ++ v) : BitVec 40) &&& 0xFFFFFFFFFC#40 = 0x0000000000#40 := by decide
  exact this sample

theorem qdButtonEdge (level : Bool) : Statement (.qdButtonEdge level) := by
  intro c
  cases level <;> rfl

theorem pdVolumeDelta (delta : BitVec 32) : Statement (.pdVolumeDelta delta) := by
  intro c
  change ((0#4 ++ 0x7#4) ++ delta : BitVec 40) &&& (0xFF#8 ++ 0#32 : BitVec 40) = (0x07#8 ++ 0#32 : BitVec 40)
  rw [BitVec.and_append, BitVec.and_zero]
  rfl

theorem envRxArrive (b : Byte) : Statement (.envRxArrive b) := by
  intro c
  change ((0#4 ++ 0xE#4) ++ (0#24 ++ b) : BitVec 40) &&& (0xFF#8 ++ (0xFFFFFF#24 ++ 0#8) : BitVec 40)
    = (0x0E#8 ++ (0#24 ++ 0#8) : BitVec 40)
  rw [BitVec.and_append, BitVec.and_append, BitVec.and_zero]
  rfl

theorem qdDrain : Statement .qdDrain := fun _ => rfl
theorem qdReadButton : Statement .qdReadButton := fun _ => rfl
theorem pdBegin : Statement .pdBegin := fun _ => rfl
theorem pdPoll : Statement .pdPoll := fun _ => rfl
theorem pdIsReady : Statement .pdIsReady := fun _ => rfl
theorem pdReadIndex : Statement .pdReadIndex := fun _ => rfl
theorem envReset : Statement .envReset := fun _ => rfl
theorem tt0000 : Statement .tt0000 := fun _ => rfl
theorem tt0001 : Statement .tt0001 := fun _ => rfl
theorem tt0010 : Statement .tt0010 := fun _ => rfl
theorem tt0011 : Statement .tt0011 := fun _ => rfl
theorem tt0100 : Statement .tt0100 := fun _ => rfl
theorem tt0101 : Statement .tt0101 := fun _ => rfl
theorem tt0110 : Statement .tt0110 := fun _ => rfl
theorem tt0111 : Statement .tt0111 := fun _ => rfl
theorem tt1000 : Statement .tt1000 := fun _ => rfl
theorem tt1001 : Statement .tt1001 := fun _ => rfl
theorem tt1010 : Statement .tt1010 := fun _ => rfl
theorem tt1011 : Statement .tt1011 := fun _ => rfl
theorem tt1100 : Statement .tt1100 := fun _ => rfl
theorem tt1101 : Statement .tt1101 := fun _ => rfl
theorem tt1110 : Statement .tt1110 := fun _ => rfl
theorem tt1111 : Statement .tt1111 := fun _ => rfl
theorem rxReadyMarker : Statement .rxReadyMarker := fun _ => trivial
theorem rxBlobMarker : Statement .rxBlobMarker := fun _ => trivial
theorem rxOther (b : Byte) : Statement (.rxOther b) := fun _ => trivial
theorem txHsInit : Statement .txHsInit := fun c => Machine.handshakeFrame_length c
theorem txVolumeCmd (idx : Byte) : Statement (.txVolumeCmd idx) := fun _ => rfl

end Sys2Proof.Laws.TableRow
end

