-- ==== Sys2Proof/Laws/Units.lean ====
section
/-! SUPPORT. What the bodies of the two units' operations do: the decoder's transition, the scanner and the poll loop, the
volume request, and runs of several instructions. -/

namespace Sys2Proof.Machine

/-- The decoder's transition on a sample. -/
theorem stepDecoder_drive (p : PinState) (s : State) :
    stepDecoder (drivePhasePins p s) =
      (((drivePhasePins p s).setAccumulatedDelta
        (sat s.cfg.accWidth (s.qd.accumulatedDelta + tableStep s.qd.previousState p))).setPreviousState p) := by
  unfold stepDecoder
  rw [samplePhasePins_drive]
  rfl

/-- The scanner's step: one event for a blob marker, readiness for the ready marker. -/
theorem scanByte_eq (b : Byte) (s : State) :
    scanByte b s = (s.setLog (s.env.log ++ if b = s.cfg.blobMarker then [.blobBegin] else [])).setLinkReady
      (readyAfter s.pd.linkReady b) := by
  unfold scanByte
  split
  · rfl
  · rw [List.append_nil]; rfl

/-- One turn of the poll loop. -/
theorem pollLoop_cons {s : State} {b : Byte} {bs : List Byte} (h : s.env.rx = b :: bs) (n : Nat) :
    pollLoop (n + 1) s = pollLoop n (scanByte b (s.setRx bs)) := by
  simp [pollLoop, rxRead, h]

/-- The poll loop over all the bytes available never finds the queue empty, and scans each once (`41_protocol_driver.md`
R86, R101). -/
theorem pollLoop_all : ∀ (bs : List Byte) (s : State), s.env.rx = bs →
    pollLoop bs.length s = .next (((s.setRx []).setLog (s.env.log ++ blobEvents s.cfg bs)).setLinkReady
      (s.pd.linkReady || bs.contains readyMarker))
  | [], s, h => by
    have : s = ((s.setRx []).setLog (s.env.log ++ [])).setLinkReady (s.pd.linkReady || false) := by
      rw [List.append_nil, Bool.or_false, ← h]; rfl
    exact congrArg Host.Outcome.next this
  | b :: bs, s, h => by
    rw [List.length_cons, pollLoop_cons h, pollLoop_all bs _ (by rw [scanByte_eq]; rfl), scanByte_eq]
    refine congrArg Host.Outcome.next (State.eq_of_parts rfl rfl ?_ ?_ rfl rfl)
    · simp only [State.setLinkReady, State.setRx, State.setLog, readyAfter, List.contains_cons]
      by_cases hb : b = readyMarker
      · simp [hb]
      · simp [hb, beq_eq_false_iff_ne.mpr (Ne.symm hb)]
    · simp only [State.setLinkReady, State.setRx, State.setLog, blobEvents, List.append_assoc]
      by_cases hb : b = s.cfg.blobMarker
      · simp [hb, List.replicate_succ]
      · simp [hb]

/-- All a volume request can do. -/
theorem volumeRequest_cases {d : Int} {s t : State} (h : volumeRequest d s = .next t) :
    (s.pd.linkReady = false ∧ t = logEvent (.dropNotReady d) s) ∨
    (s.pd.linkReady = true ∧ s.pd.transportAttached = false ∧ t = s.setFault (some .transportUnavailable)) ∨
    (s.pd.linkReady = true ∧ s.pd.transportAttached = true ∧
      t = txWrite (commandFrame s.cfg (indexByte (clampedIndex s.cfg.steps s.pd.volumeIndex d)))
        (s.setVolumeIndex (indexByte (clampedIndex s.cfg.steps s.pd.volumeIndex d)))) := by
  unfold volumeRequest at h
  split at h
  case isTrue hr =>
    rcases requireTransport_cases h with ⟨ha, ht⟩ | ⟨ha, ht⟩
    · exact .inr (.inl ⟨hr, ha, ht⟩)
    · exact .inr (.inr ⟨hr, ha, (next_inj.mp ht).symm⟩)
  case isFalse hr =>
    exact .inl ⟨by simpa using hr, (next_inj.mp h).symm⟩

/-- An operation that only makes the halt check answers the unchanged state or its own effect. -/
theorem running_cases {s t u : State} (h : whenRunning s (.next u) = .next t) : t = s ∨ t = u := by
  rcases whenRunning_cases h with ⟨-, h⟩ | ⟨-, h⟩
  · exact .inl h
  · exact .inr (next_inj.mp h).symm

/-- All a poll can do. -/
theorem pollOperation_cases {s t : State} (h : pollOperation s = .next t) :
    t = s ∨ (s.pd.transportAttached = false ∧ t = s.setFault (some .transportUnavailable)) ∨
    (s.pd.transportAttached = true ∧
      t = ((s.setRx []).setLog (s.env.log ++ blobEvents s.cfg s.env.rx)).setLinkReady
        (s.pd.linkReady || s.env.rx.contains readyMarker)) := by
  rcases whenRunning_cases h with ⟨-, h⟩ | ⟨-, h⟩
  · exact .inl h
  rcases requireTransport_cases h with h | ⟨ha, h⟩
  · exact .inr (.inl h)
  · rw [rxAvail, pollLoop_all _ s rfl] at h
    exact .inr (.inr ⟨ha, (next_inj.mp h).symm⟩)

/-- An index just delivered is the one the caller knows. -/
@[simp] theorem deliveredIndex_append (rs : List Result) (v : Nat) : deliveredIndex (rs ++ [.index v]) = v := by
  simp [deliveredIndex]

/-- The request of an outbound frame row asks for exactly the difference to the index read. -/
theorem clickCount_clicksTo (x y : Byte) (rs : List Result) :
    clickCount (clicksTo x (rs ++ [.index y.toNat])) = (x.toNat : Int) - (y.toNat : Int) := by
  rw [clicksTo, deliveredIndex_append]
  exact toInt_ofInt_sub x y

/-- The results a caller holds once the read has answered. -/
theorem resultsAfterRead_eq {s t : State} (h : exec .pdReadIndex s = .next t) : resultsAfterRead s = t.returns := by
  simp [resultsAfterRead, h]

/-- The outbound frame row on a running machine: the read, then the request from there. -/
theorem execTxVolumeCmd_running {s : State} (h : s.env.fault = none) (x : Byte) :
    execTxVolumeCmd x s = volumeRequest ((x.toNat : Int) - (s.pd.volumeIndex.toNat : Int))
      (returnValue (.index s.pd.volumeIndex.toNat) s) := by
  rw [execTxVolumeCmd, readIndexOperation, whenRunning_running h, andThen_next, volumeOperation,
    whenRunning_running (s := returnValue _ s) h]
  exact congrArg (volumeRequest · _) (clickCount_clicksTo x s.pd.volumeIndex s.returns)

@[simp] theorem execAll_nil (s : State) : execAll [] s = .next s := rfl

theorem execAll_cons {i : Instr} {s t : State} (h : exec i s = .next t) (is : List Instr) :
    execAll (i :: is) s = execAll is t := by simp [execAll, h]

/-- A run of two parts is the parts one after the other. -/
theorem execAll_append {is : List Instr} {s t : State} (h : execAll is s = .next t) (js : List Instr) :
    execAll (is ++ js) s = execAll js t := by
  induction is generalizing s with
  | nil => cases h; rfl
  | cons i is ih =>
    rw [List.cons_append]
    cases he : exec i s with
    | next u => rw [execAll_cons he] at h ⊢; exact ih h
    | fault r => simp [execAll, he] at h
    | refused r => simp [execAll, he] at h

/-- A run of two operations is one after the other. -/
theorem execAll_pair (i j : Instr) (s : State) : execAll [i, j] s = andThen (exec i s) (exec j) := by
  simp only [execAll]
  cases exec i s with
  | next t => cases h : exec j t <;> simp [andThen, h]
  | fault r => rfl
  | refused r => rfl

end Sys2Proof.Machine
end

