-- ==== Sys2Proof/Tests/Slice0.lean ====
section
/-! SUPPORT. The model's own tests. Expected values come from `95_test_vectors.md` (the vector is named at each test) or are
written out from the rule cited, under the test-only constants of its section 0. The witness theorems show, statement by
statement of Certificates/Slice0/Obligations.lean, inputs that meet its hypotheses, clause by clause. -/

namespace Sys2Proof.Tests

open Sys2Proof Sys2Proof.Machine

/-- The test-only constants of `95_test_vectors.md` section 0. -/
def testConfig : Config where
  steps      := 60
  accWidth   := some 32
  prevReset  := 0b00#2
  indexReset := 60#8
  hsInit     := #v[0x01#8, 0x02#8, 0x03#8, 0x04#8, 0x05#8, 0x06#8, 0x07#8]
  hsFollowup := []
  cmdHdr     := { f0 := 0x11#8, f1 := 0x22#8, f2 := 0x33#8, p0 := 0x44#8, p1 := 0x55#8, cc := 0x66#8 }
  blobMarker := 0xEE#8

/-- The same with both markers the same byte (V17). -/
def oneMarker : Config := { testConfig with blobMarker := 0xFB#8 }

/-- The reset state under the test constants, both phases low and the button released. -/
def atReset : State := State.resetOf testConfig { a := false, b := false, btn := true }

def handshake : Frame := [0x01#8, 0x02#8, 0x03#8, 0x04#8, 0x05#8, 0x06#8, 0x07#8]

/-- A state with given decoder registers, the rest as at reset. -/
def decoderAt (prev : PinState) (acc : Int) : State :=
  { atReset with qd := { previousState := prev, accumulatedDelta := acc, buttonState := false } }

/-- The same with the 8-bit accumulator of Q7 to Q9. -/
def decoder8At (prev : PinState) (acc : Int) : State :=
  { decoderAt prev acc with cfg := { testConfig with accWidth := some 8 } }

/-- A session with given readiness, index and bytes available; the handshake has been sent. -/
def sessionAt (ready : Bool) (idx : Byte) (rx : List Byte) : State :=
  { atReset with
    pd := { transportAttached := true, linkReady := ready, volumeIndex := idx }
    env := { atReset.env with rx := rx, tx := [handshake] } }

/-- The halted state after V2. -/
def haltedAt : State := { atReset with env := { atReset.env with fault := some .transportUnavailable } }

/-- Ready without a transport: no run reaches it (R94), the rules still say what happens there (R89). -/
def readyDetached : State :=
  { atReset with pd := { transportAttached := false, linkReady := true, volumeIndex := 60#8 } }

/-- The next state of an outcome. -/
def after : Host.Outcome State Fault Refusal → Option State
  | .next t    => some t
  | .fault _   => none
  | .refused _ => none

/-! ## WellFormed: each check refuses an ill-formed term -/

theorem test_wf_blob_row_needs_its_own_byte : Instr.wellFormed oneMarker .rxBlobMarker = false := by decide
theorem test_wf_blob_row : Instr.wellFormed testConfig .rxBlobMarker = true := by decide
theorem test_wf_other_refuses_ready : Instr.wellFormed testConfig (.rxOther 0xFB#8) = false := by decide
theorem test_wf_other_refuses_blob : Instr.wellFormed testConfig (.rxOther 0xEE#8) = false := by decide
theorem test_wf_index_above_range : Instr.wellFormed testConfig (.txVolumeCmd 121#8) = false := by decide
theorem test_wf_index_at_bound : Instr.wellFormed testConfig (.txVolumeCmd 120#8) = true := by decide

/-! ## Decoding: words written out from the encodings (`30_encoding.md` R51, R47, R56, R52, R53) -/

theorem test_decode_phase_edge : decode testConfig (.trace40 0x0000000002#40) = some (.qdPhaseEdge 0b10#2) := by decide
theorem test_decode_button_edge : decode testConfig (.trace40 0x0100000001#40) = some (.qdButtonEdge true) := by decide
theorem test_decode_drain : decode testConfig (.trace40 0x0200000000#40) = some .qdDrain := by decide
theorem test_decode_read_button : decode testConfig (.trace40 0x0300000000#40) = some .qdReadButton := by decide
theorem test_decode_begin : decode testConfig (.trace40 0x0400000000#40) = some .pdBegin := by decide
theorem test_decode_poll : decode testConfig (.trace40 0x0500000000#40) = some .pdPoll := by decide
theorem test_decode_is_ready : decode testConfig (.trace40 0x0600000000#40) = some .pdIsReady := by decide
theorem test_decode_volume_delta :
    decode testConfig (.trace40 0x07FFFFFFF6#40) = some (.pdVolumeDelta (BitVec.ofInt 32 (-10))) := by decide
theorem test_decode_read_index : decode testConfig (.trace40 0x0800000000#40) = some .pdReadIndex := by decide
theorem test_decode_rx_arrive : decode testConfig (.trace40 0x0E000000FB#40) = some (.envRxArrive 0xFB#8) := by decide
theorem test_decode_reset : decode testConfig (.trace40 0x0F00000000#40) = some .envReset := by decide
theorem test_decode_table_row_00 :
    [0b0000#4, 0b0001#4, 0b0010#4, 0b0011#4].map decodeIndex = [.tt0000, .tt0001, .tt0010, .tt0011] := by decide
theorem test_decode_table_row_01 :
    [0b0100#4, 0b0101#4, 0b0110#4, 0b0111#4].map decodeIndex = [.tt0100, .tt0101, .tt0110, .tt0111] := by decide
theorem test_decode_table_row_10 :
    [0b1000#4, 0b1001#4, 0b1010#4, 0b1011#4].map decodeIndex = [.tt1000, .tt1001, .tt1010, .tt1011] := by decide
theorem test_decode_table_row_11 :
    [0b1100#4, 0b1101#4, 0b1110#4, 0b1111#4].map decodeIndex = [.tt1100, .tt1101, .tt1110, .tt1111] := by decide
theorem test_decode_ready_marker : decode testConfig (.rxByte 0b11111011#8) = some .rxReadyMarker := by decide
theorem test_decode_blob_marker : decode testConfig (.rxByte 0xEE#8) = some .rxBlobMarker := by decide
theorem test_decode_other_byte : decode testConfig (.rxByte 0xAF#8) = some (.rxOther 0xAF#8) := by decide
theorem test_decode_one_byte_for_both_markers : decode oneMarker (.rxByte 0xFB#8) = some .rxReadyMarker := by decide
theorem test_decode_hs_init : decode testConfig (.txFrame handshake) = some .txHsInit := by decide
/-- The frame of S3, completed in `95_test_vectors.md` section 1. -/
theorem test_decode_volume_cmd :
    decode testConfig (.txFrame [0x11#8, 0x22#8, 0x33#8, 0x44#8, 0x55#8, 0x66#8, 0x3F#8, 0xA4#8])
      = some (.txVolumeCmd 63#8) := by decide
/-- A wrong checksum, an index above 120, and a set must-be-zero bit or nibble belong to no row (R57). -/
theorem test_decode_refuses_bad_checksum :
    decode testConfig (.txFrame [0x11#8, 0x22#8, 0x33#8, 0x44#8, 0x55#8, 0x66#8, 0x3F#8, 0xA5#8]) = none := by decide
theorem test_decode_refuses_index_121 :
    decode testConfig (.txFrame [0x11#8, 0x22#8, 0x33#8, 0x44#8, 0x55#8, 0x66#8, 0x79#8, 0xDE#8]) = none := by decide
theorem test_decode_refuses_must_be_zero_bit : decode testConfig (.trace40 0x0000000004#40) = none := by decide
theorem test_decode_refuses_operand_of_drain : decode testConfig (.trace40 0x0200000001#40) = none := by decide
theorem test_decode_refuses_top_nibble : decode testConfig (.trace40 0x1200000000#40) = none := by decide
theorem test_decode_refuses_selector_9 : decode testConfig (.trace40 0x0900000000#40) = none := by decide
theorem test_decode_refuses_selector_D : decode testConfig (.trace40 0x0D00000000#40) = none := by decide
/-- Byte 0 of a frame is the least significant byte of the table's numbering (log entry 6). -/
theorem test_frame_bytes_in_order : TableWord.ofBits 56 0x07060504030201 = .txFrame handshake := by decide
theorem test_encode_volume_delta :
    encode testConfig (.pdVolumeDelta (BitVec.ofInt 32 (-5))) = .trace40 0x07FFFFFFFB#40 := by decide

/-! ## One step each -/

/-- S1, Q1 row 0 column 2. -/
theorem test_phase_edge_plus_one :
    (after (exec (.qdPhaseEdge 0b10#2) atReset)).map (fun t => (t.qd, t.env.pins.a, t.env.pins.b))
      = some ({ previousState := 0b10#2, accumulatedDelta := 1, buttonState := false }, true, false) := by decide
/-- Q8: saturation low, the state still moves. -/
theorem test_phase_edge_saturates_low :
    (after (exec (.qdPhaseEdge 0b01#2) (decoder8At 0b00#2 (-128)))).map (fun t => t.qd)
      = some { previousState := 0b01#2, accumulatedDelta := -128, buttonState := false } := by decide
/-- Q15: active low. -/
theorem test_button_low_is_pressed :
    (after (exec (.qdButtonEdge false) atReset)).map (fun t => t.qd.buttonState) = some true := by decide
theorem test_button_high_is_released :
    (after (exec (.qdButtonEdge true) { atReset with qd := { atReset.qd with buttonState := true } })).map
      (fun t => (t.qd.buttonState, t.env.pins.btn)) = some (false, true) := by decide
/-- Q10; the previous state stays (Q11). -/
theorem test_drain :
    (after (exec .qdDrain (decoderAt 0b10#2 4))).map (fun t => (t.returns, t.qd))
      = some ([.delta 4], { previousState := 0b10#2, accumulatedDelta := 0, buttonState := false }) := by decide
theorem test_read_button : after (exec .qdReadButton atReset) = some { atReset with returns := [.button false] } := by decide
/-- V1. -/
theorem test_begin : after (exec .pdBegin atReset) = some (sessionAt false 60#8 []) := by decide
/-- V15: a second begin un-readies and sends again. -/
theorem test_second_begin :
    (after (exec .pdBegin (sessionAt true 63#8 []))).map (fun t => (t.pd, t.env.tx))
      = some ({ transportAttached := true, linkReady := false, volumeIndex := 63#8 }, [handshake, handshake]) := by decide
/-- V2b: the fault is precise. -/
theorem test_poll_without_transport :
    after (exec .pdPoll { atReset with env := { atReset.env with rx := [0xFB#8] } })
      = some { atReset with env := { atReset.env with rx := [0xFB#8], fault := some .transportUnavailable } } := by decide
/-- V14. -/
theorem test_poll_scans_all :
    (after (exec .pdPoll (sessionAt false 60#8 [0xEE#8, 0xFB#8, 0xEE#8, 0x00#8]))).map
      (fun t => (t.pd.linkReady, t.env.rx, t.env.log)) = some (true, [], [.blobBegin, .blobBegin]) := by decide
/-- V19: no fault without a transport. -/
theorem test_is_ready : after (exec .pdIsReady atReset) = some { atReset with returns := [.ready false] } := by decide
/-- V6, the document's S3. -/
theorem test_volume_delta_sends :
    (after (exec (.pdVolumeDelta 5#32) (sessionAt true 58#8 []))).map (fun t => (t.pd.volumeIndex, t.env.tx))
      = some (63#8, [handshake, [0x11#8, 0x22#8, 0x33#8, 0x44#8, 0x55#8, 0x66#8, 0x3F#8, 0xA4#8]]) := by decide
/-- V10, second operation: no wrap at the most negative operand. -/
theorem test_volume_delta_clamps_low :
    (after (exec (.pdVolumeDelta 0x80000000#32) (sessionAt true 120#8 []))).map (fun t => (t.pd.volumeIndex, t.env.tx))
      = some (0#8, [handshake, [0x11#8, 0x22#8, 0x33#8, 0x44#8, 0x55#8, 0x66#8, 0x00#8, 0x65#8]]) := by decide
/-- V3: dropped before begin, not a fault. -/
theorem test_volume_delta_not_ready :
    after (exec (.pdVolumeDelta 7#32) atReset)
      = some { atReset with env := { atReset.env with log := [.dropNotReady 7] } } := by decide
/-- V12's last index before the range ends. -/
theorem test_read_index_unsigned :
    (after (exec .pdReadIndex (sessionAt true 254#8 []))).map (fun t => t.returns) = some [.index 254] := by decide
theorem test_rx_arrive_at_tail :
    (after (exec (.envRxArrive 0xFB#8) (sessionAt false 60#8 [0x12#8]))).map (fun t => t.env.rx)
      = some [0x12#8, 0xFB#8] := by decide
/-- Q21. -/
theorem test_reset_of_decoder :
    after (exec .envReset { decoderAt 0b11#2 5 with returns := [.delta 1] })
      = some { atReset with returns := [.delta 1] } := by decide
/-- V18, V18b: a halted machine ignores everything but reset. -/
theorem test_halted_ignores :
    [.qdPhaseEdge 0b10#2, .pdBegin, .pdIsReady, .qdDrain, .envRxArrive 0x00#8].map (fun i => after (exec i haltedAt))
      = List.replicate 5 (some haltedAt) := by decide
theorem test_reset_leaves_halt : after (exec .envReset haltedAt) = some atReset := by decide
/-- Q1: from previous state p and delta 0 the row of p and c ends with the column "step", in c. -/
theorem test_table_rows_from_00 :
    [.tt0000, .tt0001, .tt0010, .tt0011].map (fun i => (after (exec i (decoderAt 0b00#2 0))).map
      (fun t => (t.qd.accumulatedDelta, t.qd.previousState)))
      = [some (0, 0b00#2), some (-1, 0b01#2), some (1, 0b10#2), some (0, 0b11#2)] := by decide
theorem test_table_rows_from_01 :
    [.tt0100, .tt0101, .tt0110, .tt0111].map (fun i => (after (exec i (decoderAt 0b01#2 0))).map
      (fun t => (t.qd.accumulatedDelta, t.qd.previousState)))
      = [some (1, 0b00#2), some (0, 0b01#2), some (0, 0b10#2), some (-1, 0b11#2)] := by decide
theorem test_table_rows_from_10 :
    [.tt1000, .tt1001, .tt1010, .tt1011].map (fun i => (after (exec i (decoderAt 0b10#2 0))).map
      (fun t => (t.qd.accumulatedDelta, t.qd.previousState)))
      = [some (-1, 0b00#2), some (0, 0b01#2), some (0, 0b10#2), some (1, 0b11#2)] := by decide
theorem test_table_rows_from_11 :
    [.tt1100, .tt1101, .tt1110, .tt1111].map (fun i => (after (exec i (decoderAt 0b11#2 0))).map
      (fun t => (t.qd.accumulatedDelta, t.qd.previousState)))
      = [some (0, 0b00#2), some (1, 0b01#2), some (-1, 0b10#2), some (0, 0b11#2)] := by decide
/-- V5's last byte, FEED 0xFB. -/
theorem test_ready_row : after (exec .rxReadyMarker (sessionAt false 60#8 [])) = some (sessionAt true 60#8 []) := by decide
/-- V17. -/
theorem test_ready_row_both_markers :
    (after (exec .rxReadyMarker { sessionAt false 60#8 [] with cfg := oneMarker })).map
      (fun t => (t.pd.linkReady, t.env.log)) = some (true, [.blobBegin]) := by decide
/-- V13. -/
theorem test_blob_row :
    (after (exec .rxBlobMarker (sessionAt false 60#8 []))).map (fun t => (t.pd.linkReady, t.env.rx, t.env.log))
      = some (false, [], [.blobBegin]) := by decide
/-- FEED scans what was queued before it (V21's bytes, the first one waiting). -/
theorem test_other_row :
    after (exec (.rxOther 0x12#8) (sessionAt false 60#8 [0xFB#8])) = some (sessionAt true 60#8 []) := by decide
/-- V2b: without a transport the byte stays queued. -/
theorem test_ready_row_without_transport :
    after (exec .rxReadyMarker atReset)
      = some { atReset with env := { atReset.env with rx := [0xFB#8], fault := some .transportUnavailable } } := by decide
/-- V1. -/
theorem test_hs_init_row : after (exec .txHsInit atReset) = some (sessionAt false 60#8 []) := by decide
/-- V12's frame with STEPS = 127. -/
theorem test_volume_cmd_row :
    (after (exec (.txVolumeCmd 254#8) { sessionAt true 0#8 [] with cfg := { testConfig with steps := 127 } })).map
      (fun t => (t.pd.volumeIndex, t.env.tx))
      = some (254#8, [handshake, [0x11#8, 0x22#8, 0x33#8, 0x44#8, 0x55#8, 0x66#8, 0xFE#8, 0x63#8]]) := by decide
/-- The row reads the index (R90) and asks for the difference, here 3 to 58: 55 clicks, dropped while not ready (R112). -/
theorem test_volume_cmd_row_not_ready :
    (after (exec (.txVolumeCmd 58#8) (sessionAt false 3#8 []))).map (fun t => (t.pd.volumeIndex, t.env.log, t.returns))
      = some (3#8, [.dropNotReady 55], [.index 3]) := by decide

/-- The checksum table of `95_test_vectors.md` section 2.2. -/
theorem test_checksums :
    [0#8, 1#8, 58#8, 60#8, 63#8, 115#8, 120#8, 154#8, 155#8, 254#8].map (fun i => (commandFrame testConfig i).getD 7 0#8)
      = [0x65#8, 0x66#8, 0x9F#8, 0xA1#8, 0xA4#8, 0xD8#8, 0xDD#8, 0xFF#8, 0x00#8, 0x63#8] := by decide
/-- A placed word is what the very next step runs, from the reset state itself. -/
theorem test_step_runs_placed_word :
    step (State.reset.withFetchWord 40 0x0200000000) = exec .qdDrain State.reset := rfl
theorem test_step_refuses_reserved_word :
    step (State.reset.withFetchWord 40 0x0900000000) = .refused .malformedWord := rfl

/-! ## Witnesses: the hypotheses of each statement met, each clause at a boundary of its range -/

theorem witness_running : atReset.env.fault = none := rfl
theorem witness_PhaseEdgeAddsTableStep : (decoder8At 0b00#2 127).env.fault = none := rfl
theorem witness_ButtonEdgeStoresInverseLevel : atReset.env.fault = none := rfl
theorem witness_SampledLevelsAreThePins : atReset.env.fault = none := rfl
theorem witness_DrainReturnsAndZeroes : (decoderAt 0b10#2 4).env.fault = none := rfl
theorem witness_ButtonReadReturnsBit : atReset.env.fault = none := rfl
theorem witness_AccumulatorSaturatesAtBounds_high :
    (decoder8At 0b00#2 127).env.fault = none ∧ (decoder8At 0b00#2 127).cfg.accWidth = some 8 ∧ 2 ≤ 8 ∧
      (127 : Int) = accMax 8 ∧ printedTable 0b00#2 0b10#2 = 1 := by decide
theorem witness_AccumulatorSaturatesAtBounds_low :
    (decoder8At 0b00#2 (-128)).env.fault = none ∧ (decoder8At 0b00#2 (-128)).cfg.accWidth = some 8 ∧ 2 ≤ 8 ∧
      (-128 : Int) = accMin 8 ∧ printedTable 0b00#2 0b01#2 = -1 := by decide
/-- One below the bound the plain sum is the bound. -/
theorem witness_AccumulatorSaturatesAtBounds_inside :
    (decoder8At 0b00#2 126).cfg.accWidth = some 8 ∧ accMin 8 ≤ 126 + printedTable 0b00#2 0b10#2 ∧
      126 + printedTable 0b00#2 0b10#2 ≤ accMax 8 := by decide
theorem witness_AccumulationIsSaturatedFold_unbounded :
    ({ atReset with cfg := { testConfig with accWidth := none } } : State).env.fault = none ∧
      ({ atReset with cfg := { testConfig with accWidth := none } } : State).cfg.accWidth = none := ⟨rfl, rfl⟩
/-- Q2's four samples, |a0| + n = ACC_MAX. -/
theorem witness_AccumulationIsSaturatedFold_bounded :
    (decoder8At 0b00#2 123).env.fault = none ∧ (decoder8At 0b00#2 123).cfg.accWidth = some 8 ∧
      ((123 : Int).natAbs : Int) + (([0b10#2, 0b11#2, 0b01#2, 0b00#2] : List PinState).length : Int) ≤ accMax 8 := by decide
theorem witness_EvenBounceRunsLeaveNoTrace :
    (decoder8At 0b10#2 127).env.fault = none ∧
      AccInRange (decoder8At 0b10#2 127).cfg (decoder8At 0b10#2 127).qd.accumulatedDelta ∧
      (decoder8At 0b10#2 127).cfg.Ok := by decide
/-- Q12 to Q14 start here. -/
theorem witness_EvenBounceRunsLeaveNoTrace_odd :
    (decoderAt 0b10#2 0).env.fault = none ∧ (decoderAt 0b10#2 0).cfg.Ok ∧
      (decoderAt 0b10#2 0).qd.accumulatedDelta = 0 ∧ (decoderAt 0b10#2 0).qd.previousState = 0b10#2 := by decide
/-- A closed path of adjacent transitions. -/
theorem witness_StepSumFollowsPhase_path :
    countSteps (fun a b => decide (NonAdjacent a b)) 0b00#2 [0b10#2, 0b11#2, 0b01#2, 0b00#2] = 0 ∧
      lastState 0b00#2 [0b10#2, 0b11#2, 0b01#2, 0b00#2] = 0b00#2 := by decide
theorem witness_StepSumFollowsPhase_run :
    (decoder8At 0b00#2 125).env.fault = none ∧
      Unsaturated (some 8) 125 0b00#2 [0b10#2, 0b11#2] :=
  ⟨rfl, by decide, by decide, trivial⟩
/-- Program E's first two lines, up to the bound, and a poll's fault left out. -/
theorem witness_DrainsConserveEveryStep :
    (decoder8At 0b00#2 126).env.fault = none ∧ Instr.envReset ∉ [Instr.qdPhaseEdge 0b10#2, .qdDrain] ∧
      NoSaturation (some 8) 126 0b00#2 [.qdPhaseEdge 0b10#2, .qdDrain] ∧
      ∃ t, execAll [.qdPhaseEdge 0b10#2, .qdDrain] (decoder8At 0b00#2 126) = .next t ∧ t.env.fault = none ∧
        drainedSum t.returns = 127 :=
  ⟨rfl, by decide, ⟨⟨by decide, trivial⟩, trivial, trivial⟩, _, rfl, rfl, by decide⟩
/-- Q17. -/
theorem witness_MiswiredPinsNeverAccumulate_tied :
    atReset.env.fault = none ∧ atReset.cfg.Ok ∧ AccInRange atReset.cfg atReset.qd.accumulatedDelta ∧
      (∀ q ∈ atReset.qd.previousState :: [0b11#2, 0b00#2, 0b11#2], q = 0b00#2 ∨ q = 0b11#2) := by decide
/-- Q18 and Q18b: B stuck low, B stuck high. -/
theorem witness_MiswiredPinsNeverAccumulate_stuck_low :
    Adjacent 0b00#2 0b10#2 ∧ ∀ q ∈ ([0b10#2, 0b00#2, 0b10#2] : List PinState), q = 0b00#2 ∨ q = 0b10#2 := by decide
theorem witness_MiswiredPinsNeverAccumulate_stuck_high :
    Adjacent 0b01#2 0b11#2 ∧ ∀ q ∈ ([0b11#2, 0b01#2, 0b11#2] : List PinState), q = 0b01#2 ∨ q = 0b11#2 := by decide
theorem witness_BothPhasesAtOnceCountZero :
    (decoder8At 0b10#2 (-128)).env.fault = none ∧ (decoder8At 0b10#2 (-128)).cfg.Ok ∧
      AccInRange (decoder8At 0b10#2 (-128)).cfg (decoder8At 0b10#2 (-128)).qd.accumulatedDelta := by decide
/-- From a halted machine too. -/
theorem witness_FirstEdgeJudgedFromResetState : haltedAt.cfg.Ok := by decide
theorem witness_BeginAttachesSendsUnreadies : (sessionAt true 63#8 []).env.fault = none := rfl
theorem witness_PollScansEveryByteOrFaults_detached :
    atReset.env.fault = none ∧ atReset.pd.transportAttached = false := ⟨rfl, rfl⟩
theorem witness_PollScansEveryByteOrFaults_attached :
    (sessionAt false 60#8 [0xEE#8, 0xFB#8]).env.fault = none ∧
      (sessionAt false 60#8 [0xEE#8, 0xFB#8]).pd.transportAttached = true := ⟨rfl, rfl⟩
theorem witness_ReadinessQueryReturnsBit : atReset.env.fault = none := rfl
theorem witness_IndexReadReturnsIndex : (sessionAt true 254#8 []).env.fault = none := rfl
theorem witness_VolumeRequestDropsOrSends_drop :
    atReset.env.fault = none ∧ atReset.cfg.Ok ∧ atReset.pd.linkReady = false := by decide
/-- Met only outside the reachable states (R94). -/
theorem witness_VolumeRequestDropsOrSends_fault :
    readyDetached.env.fault = none ∧ readyDetached.cfg.Ok ∧ readyDetached.pd.linkReady = true ∧
      readyDetached.pd.transportAttached = false := by decide
theorem witness_VolumeRequestDropsOrSends_send :
    (sessionAt true 120#8 []).env.fault = none ∧ (sessionAt true 120#8 []).cfg.Ok ∧
      (sessionAt true 120#8 []).pd.linkReady = true ∧ (sessionAt true 120#8 []).pd.transportAttached = true := by decide
theorem witness_NotReadyRequestIsLoggedDrop :
    (sessionAt false 60#8 []).env.fault = none ∧ (sessionAt false 60#8 []).pd.linkReady = false ∧
      ∃ u, execAll [.envRxArrive 0xFB#8, .pdPoll, .pdVolumeDelta 1#32] (sessionAt false 60#8 []) = .next u :=
  ⟨rfl, rfl, _, rfl⟩
/-- The sum is the bound itself. -/
theorem witness_ClampingIsIdempotentAtBounds_high :
    (sessionAt true 115#8 []).env.fault = none ∧ (sessionAt true 115#8 []).cfg.Ok ∧
      (sessionAt true 115#8 []).pd.linkReady = true ∧ (sessionAt true 115#8 []).pd.transportAttached = true ∧
      0 < (5#32).toInt ∧ (2 * 60 : Int) ≤ ((115#8).toNat : Int) + (5#32).toInt := by decide
theorem witness_ClampingIsIdempotentAtBounds_low :
    (sessionAt true 3#8 []).env.fault = none ∧ (sessionAt true 3#8 []).cfg.Ok ∧
      (sessionAt true 3#8 []).pd.linkReady = true ∧ (sessionAt true 3#8 []).pd.transportAttached = true ∧
      (BitVec.ofInt 32 (-3)).toInt < 0 ∧ ((3#8).toNat : Int) + (BitVec.ofInt 32 (-3)).toInt ≤ 0 := by decide
/-- V7 and V7b. -/
theorem witness_ClampingIsIdempotentAtBounds_not_reversible :
    (sessionAt true 118#8 []).env.fault = none ∧ (sessionAt true 118#8 []).cfg.Ok ∧
      (sessionAt true 118#8 []).pd.linkReady = true ∧ (sessionAt true 118#8 []).pd.transportAttached = true ∧
      (sessionAt true 118#8 []).cfg.steps = 60 ∧ (sessionAt true 118#8 []).pd.volumeIndex = 118#8 := by decide
theorem witness_EveryAcceptedRequestSendsOneFrame :
    (sessionAt true 60#8 []).env.fault = none ∧ (sessionAt true 60#8 []).pd.linkReady = true ∧
      (sessionAt true 60#8 []).pd.transportAttached = true := ⟨rfl, rfl, rfl⟩
theorem witness_ReadinessIsMonotoneWithinSession :
    Instr.pdPoll ≠ .pdBegin ∧ Instr.pdPoll ≠ .txHsInit ∧ Instr.pdPoll ≠ .envReset ∧
      (∃ t, exec .pdPoll (sessionAt true 60#8 [0x12#8]) = .next t) ∧
      (sessionAt true 60#8 [0x12#8]).pd.linkReady = true := ⟨by decide, by decide, by decide, ⟨_, rfl⟩, rfl⟩
theorem witness_SessionStateTransitions_detached :
    atReset.env.fault = none ∧ atReset.pd.transportAttached = false ∧ atReset.pd.linkReady = false := ⟨rfl, rfl, rfl⟩
theorem witness_SessionStateTransitions_awaiting :
    (sessionAt false 60#8 [0xFB#8]).env.fault = none ∧ (sessionAt false 60#8 [0xFB#8]).pd.transportAttached = true ∧
      (sessionAt false 60#8 [0xFB#8]).pd.linkReady = false := ⟨rfl, rfl, rfl⟩
theorem witness_SessionStateTransitions_ready :
    (sessionAt true 60#8 []).env.fault = none ∧ (sessionAt true 60#8 []).pd.transportAttached = true ∧
      (sessionAt true 60#8 []).pd.linkReady = true := ⟨rfl, rfl, rfl⟩
theorem witness_ArrivingByteJoinsQueue : atReset.env.fault = none := rfl
theorem witness_ResetRestoresEveryField : haltedAt.env.fault ≠ none ∧ Instr.pdPoll ≠ .envReset := by decide
theorem witness_HaltedMachineIgnoresAllButReset_raise :
    atReset.env.fault = none ∧ atReset.pd.transportAttached = false := ⟨rfl, rfl⟩
theorem witness_HaltedMachineIgnoresAllButReset_halted :
    haltedAt.env.fault ≠ none ∧ Instr.envReset ∉ [Instr.pdBegin, .qdDrain, .pdIsReady] := by decide
theorem witness_HaltedMachineIgnoresAllButReset_queries :
    Instr.pdReadIndex ∈ [Instr.pdBegin, .pdIsReady, .pdReadIndex] := by decide
theorem witness_FaultsArePreciseAndOnlyUnattached :
    atReset.env.fault = none ∧ ∃ t, exec .pdPoll atReset = .next t ∧ t.env.fault ≠ none := ⟨rfl, _, rfl, by decide⟩
/-- Outside the reachable states (R94) a request raises it too. -/
theorem witness_FaultsArePreciseAndOnlyUnattached_request :
    readyDetached.env.fault = none ∧ ∃ t, exec (.pdVolumeDelta 0#32) readyDetached = .next t ∧ t.env.fault ≠ none :=
  ⟨rfl, _, rfl, by decide⟩
/-- An inbound byte row that raises the fault, with its byte. -/
theorem witness_FaultsArePreciseAndOnlyUnattached_row :
    (∃ t, exec (.rxOther 0xAF#8) atReset = .next t ∧ t.env.fault ≠ none) ∧
      .envRxArrive 0xAF#8 ∈ operationsOf atReset (.rxOther 0xAF#8) := ⟨⟨_, rfl, by decide⟩, by decide⟩
theorem witness_FaultsArePreciseAndOnlyUnattached_command_row :
    (∃ t, exec (.txVolumeCmd 60#8) readyDetached = .next t ∧ t.env.fault ≠ none) ∧
      Instr.pdReadIndex ∈ operationsOf readyDetached (.txVolumeCmd 60#8) := ⟨⟨_, rfl, by decide⟩, by decide⟩
/-- The readiness query runs none of the operations that write a field, so it meets the premise of each clause but the last;
a poll meets that one. -/
theorem witness_FieldsChangeOnlyByTheirWriters :
    (∃ t, exec .pdIsReady atReset = .next t) ∧ Instr.pdIsReady ≠ .envReset ∧
      (∀ p, Instr.qdPhaseEdge p ∉ operationsOf atReset .pdIsReady) ∧ Instr.qdDrain ∉ operationsOf atReset .pdIsReady ∧
      (∀ l, Instr.qdButtonEdge l ∉ operationsOf atReset .pdIsReady) ∧ Instr.pdBegin ∉ operationsOf atReset .pdIsReady ∧
      Instr.pdPoll ∉ operationsOf atReset .pdIsReady ∧ (∀ d, Instr.pdVolumeDelta d ∉ operationsOf atReset .pdIsReady) ∧
      (∀ b, Instr.envRxArrive b ∉ operationsOf atReset .pdIsReady) := by
  refine ⟨⟨_, rfl⟩, by decide, ?_⟩
  simp [operationsOf]
theorem witness_FieldsChangeOnlyByTheirWriters_results :
    (∃ t, exec .pdPoll (sessionAt false 60#8 [0xFB#8]) = .next t) ∧ Instr.pdPoll ≠ .envReset ∧
      deliversResult .pdPoll = false := ⟨⟨_, rfl⟩, by decide, rfl⟩
theorem witness_RowsRunOnlyOperations : isOperation .pdPoll = true := rfl
theorem witness_ParametersAreNeverWritten : ∃ t, exec .envReset haltedAt = .next t := ⟨_, rfl⟩
theorem witness_UnitsCommute :
    isQdOperation .qdDrain = true ∧ isPdOperation (.pdVolumeDelta 5#32) = true ∧
      ∃ t, execAll [.pdVolumeDelta 5#32, .qdDrain] (sessionAt true 58#8 []) = .next t ∧ t.env.fault = none :=
  ⟨rfl, rfl, _, rfl, rfl⟩
theorem witness_InvariantHoldsAtReset : testConfig.Ok := by decide
/-- The index and the accumulator at their bounds. -/
theorem witness_InvariantKeptByEveryStep :
    Inv (placeWord (.trace40 0x0700000001#40)
      { sessionAt true 120#8 [] with qd := { previousState := 0b00#2, accumulatedDelta := 2147483647, buttonState := true } }) := by
  decide
theorem witness_InvariantKeptByEveryStep_step :
    ∃ t, step (placeWord (.trace40 0x0700000001#40) (sessionAt true 120#8 [])) = .next t := ⟨_, rfl⟩
theorem witness_DecodeInvertsEncode : Instr.wellFormed testConfig (.txVolumeCmd 120#8) = true := by decide
theorem witness_StepRunsDecodedInstruction :
    (placeWord (.trace40 0x0500000000#40) atReset).trace = [.trace40 0x0500000000#40] ∧
      decode atReset.cfg (.trace40 0x0500000000#40) = some .pdPoll := by decide
theorem witness_StepRunsDecodedInstruction_refused :
    (placeWord (.trace40 0x0D00000000#40) atReset).trace = [.trace40 0x0D00000000#40] ∧
      decode atReset.cfg (.trace40 0x0D00000000#40) = none := by decide
theorem witness_StepRunsDecodedInstruction_idle : atReset.trace = [] := rfl
theorem witness_TraceRunsInOrder :
    atReset.trace = [] ∧ ∀ i ∈ [Instr.pdBegin, .txVolumeCmd 120#8, .rxOther 0xAF#8], i.wellFormed atReset.cfg = true := by decide
/-- Each row of the match and mask table with its operand at the largest value. -/
theorem witness_TraceWordsDecodeByMatchAndMask_operands :
    (0x0000000003#40 &&& 0xFFFFFFFFFC#40 = 0x0000000000#40) ∧ (0x0100000001#40 &&& 0xFFFFFFFFFE#40 = 0x0100000000#40) ∧
      (0x07FFFFFFFF#40 &&& 0xFF00000000#40 = 0x0700000000#40) ∧ (0x0E000000FF#40 &&& 0xFFFFFFFF00#40 = 0x0E00000000#40) := by
  decide
theorem witness_TraceWordsDecodeByMatchAndMask_fixed :
    ∀ m ∈ [0x0200000000#40, 0x0300000000#40, 0x0400000000#40, 0x0500000000#40, 0x0600000000#40, 0x0800000000#40,
      0x0F00000000#40], m &&& 0xFFFFFFFFFF#40 = m := by
  simp
/-- The first word past the phase edge row's operand is in no row. -/
theorem witness_TraceWordsDecodeByMatchAndMask_none : ∀ r ∈ traceRows, 0x0000000004#40 &&& r.2 ≠ r.1 := by
  simp [traceRows]
theorem witness_ReservedSelectorsAreRefused_first :
    (0x9#4 ≤ (0x0900000000#40).extractLsb' 32 4 ∧ (0x0900000000#40).extractLsb' 32 4 ≤ 0xD#4) := by decide
theorem witness_ReservedSelectorsAreRefused_last :
    (0x9#4 ≤ (0x0D00000000#40).extractLsb' 32 4 ∧ (0x0D00000000#40).extractLsb' 32 4 ≤ 0xD#4) := by decide
theorem witness_ReservedSelectorsAreRefused_nibble : (0x1200000000#40).extractLsb' 36 4 ≠ 0#4 := by decide
theorem witness_TableRowsRunThroughTheirEntry :
    (Instr.tt0010, 0b00#2, 0b10#2, (1 : Int)) ∈ tableRows ∧ (decoder8At 0b00#2 127).env.fault = none ∧
      (decoder8At 0b00#2 127).qd.previousState = 0b00#2 ∧
      AccInRange (decoder8At 0b00#2 127).cfg (decoder8At 0b00#2 127).qd.accumulatedDelta := by decide
theorem witness_InboundByteRowsScanTheirByte_two_markers :
    (sessionAt false 60#8 []).env.fault = none ∧ (sessionAt false 60#8 []).pd.transportAttached = true ∧
      ((Instr.rxBlobMarker = .rxReadyMarker ∧ 0xEE#8 = 0xFB#8) ∨
        (Instr.rxBlobMarker = .rxBlobMarker ∧ 0xEE#8 = (sessionAt false 60#8 []).cfg.blobMarker) ∨
        Instr.rxBlobMarker = .rxOther 0xEE#8) := by decide
theorem witness_InboundByteRowsScanTheirByte_one_marker :
    ({ sessionAt false 60#8 [] with cfg := oneMarker } : State).pd.transportAttached = true ∧
      (0xFB#8 : Byte) = ({ sessionAt false 60#8 [] with cfg := oneMarker } : State).cfg.blobMarker := ⟨rfl, rfl⟩
theorem witness_InboundByteRowsScanTheirByte_detached :
    atReset.env.fault = none ∧ atReset.pd.transportAttached = false := ⟨rfl, rfl⟩
theorem witness_OutboundFrameRowsSendTheirFrame_send :
    (sessionAt true 0#8 []).env.fault = none ∧ (sessionAt true 0#8 []).cfg.Ok ∧
      (120#8).toNat ≤ 2 * (sessionAt true 0#8 []).cfg.steps ∧ (sessionAt true 0#8 []).pd.linkReady = true ∧
      (sessionAt true 0#8 []).pd.transportAttached = true := by decide
theorem witness_OutboundFrameRowsSendTheirFrame_fault :
    readyDetached.env.fault = none ∧ readyDetached.cfg.Ok ∧ readyDetached.pd.linkReady = true ∧
      readyDetached.pd.transportAttached = false := by decide
theorem witness_OutboundFrameRowsSendTheirFrame_drop :
    atReset.env.fault = none ∧ atReset.cfg.Ok ∧ atReset.pd.linkReady = false := by decide

end Sys2Proof.Tests
end

/-! PROOFS. The obligations of `00_scope.md`: every instruction is a sequence of operations (O47), none writes a parameter
(O33), a trace runs in order (O40), and the two units commute (O34). -/

namespace Sys2Proof.Machine

/-! ### Instructions as sequences of operations -/

theorem execAll_singleton (i : Instr) (s : State) : execAll [i] s = exec i s := by
  cases h : exec i s <;> simp [execAll, h]

/-- The outbound frame row passes the read's results on to its request (log entry 5). -/
theorem exec_txVolumeCmd (x : Byte) (s : State) :
    exec (.txVolumeCmd x) s = execAll [.pdReadIndex, .pdVolumeDelta (clicksTo x (resultsAfterRead s))] s := by
  have row : exec (.txVolumeCmd x) s =
      andThen (exec .pdReadIndex s) (fun t => exec (.pdVolumeDelta (clicksTo x t.returns)) t) := rfl
  rw [row, execAll_pair]
  cases h : exec .pdReadIndex s with
  | next t => rw [resultsAfterRead_eq h, andThen_next, andThen_next]
  | fault r => simp only [andThen]
  | refused r => simp only [andThen]

/-- Every instruction runs the operations `operationsOf` names (`00_scope.md` R2, `30_encoding.md` R59). -/
theorem exec_eq_execAll_operationsOf (i : Instr) (s : State) : exec i s = execAll (operationsOf s i) s := by
  cases i with
  | tt0000 | tt0001 | tt0010 | tt0011 | tt0100 | tt0101 | tt0110 | tt0111
  | tt1000 | tt1001 | tt1010 | tt1011 | tt1100 | tt1101 | tt1110 | tt1111 =>
    exact (execAll_pair (.qdPhaseEdge _) (.qdPhaseEdge _) s).symm
  | rxReadyMarker | rxBlobMarker | rxOther _ => exact (execAll_pair (.envRxArrive _) .pdPoll s).symm
  | txHsInit => exact (execAll_singleton .pdBegin s).symm
  | txVolumeCmd x => exact exec_txVolumeCmd x s
  | _ => exact (execAll_singleton _ s).symm

theorem operationsOf_all_isOperation (s : State) (i : Instr) : (operationsOf s i).all isOperation = true := by
  cases i <;> rfl

theorem operationsOf_of_isOperation {o : Instr} (h : isOperation o = true) (s : State) : operationsOf s o = [o] := by
  cases o with
  | qdPhaseEdge _ | qdButtonEdge _ | qdDrain | qdReadButton | pdBegin | pdPoll | pdIsReady | pdVolumeDelta _
  | pdReadIndex | envRxArrive _ | envReset => rfl
  | _ => cases h

/-- Settles O47: the sequences are written out in `operationsOf`, and each row's meaning is a run of one or two operations. -/
theorem rowsRunOnlyOperations : Obligations.RowsRunOnlyOperations := fun i s =>
  ⟨List.all_eq_true.mp (operationsOf_all_isOperation s i), fun h => operationsOf_of_isOperation h s,
    exec_eq_execAll_operationsOf i s⟩

section
variable {R : State → State → Prop} (refl : ∀ s, R s s) (trans : ∀ s t u, R s t → R t u → R s u)
  (operation : ∀ o s t, isOperation o = true → exec o s = .next t → R s t)
include refl trans operation

/-- What every operation keeps between the state before and the state after, a run of operations keeps. -/
theorem execAll_of_operations {is : List Instr} {s t : State} (his : is.all isOperation = true)
    (h : execAll is s = .next t) : R s t := by
  induction is generalizing s with
  | nil => cases h; exact refl _
  | cons o os ih =>
    rw [List.all_cons, Bool.and_eq_true] at his
    cases ho : exec o s with
    | next u =>
      rw [execAll_cons ho] at h
      exact trans s u t (operation o s u his.1 ho) (ih his.2 h)
    | fault r => simp [execAll, ho] at h
    | refused r => simp [execAll, ho] at h

/-- What every operation keeps, every instruction keeps: it suffices to look at the eleven. -/
theorem exec_of_operations {i : Instr} {s t : State} (h : exec i s = .next t) : R s t := by
  rw [exec_eq_execAll_operationsOf] at h
  exact execAll_of_operations refl trans operation (operationsOf_all_isOperation s i) h

end

/-! ### The parameters -/

theorem operation_keeps_cfg {o : Instr} {s t : State} (ho : isOperation o = true) (h : exec o s = .next t) :
    t.cfg = s.cfg := by
  cases o with
  | qdPhaseEdge _ | qdButtonEdge _ | qdDrain | qdReadButton | pdBegin | pdIsReady | pdReadIndex | envRxArrive _ =>
    rcases running_cases h with rfl | rfl <;> rfl
  | envReset => cases h; rfl
  | pdPoll => rcases pollOperation_cases h with rfl | ⟨-, rfl⟩ | ⟨-, rfl⟩ <;> rfl
  | pdVolumeDelta d =>
    rcases whenRunning_cases h with ⟨-, rfl⟩ | ⟨-, h⟩
    · rfl
    · rcases volumeRequest_cases h with ⟨-, rfl⟩ | ⟨-, -, rfl⟩ | ⟨-, -, rfl⟩ <;> rfl
  | _ => cases ho

theorem exec_keeps_cfg {i : Instr} {s t : State} (h : exec i s = .next t) : t.cfg = s.cfg :=
  exec_of_operations (R := fun s t => t.cfg = s.cfg) (fun _ => rfl) (fun _ _ _ hst htu => htu.trans hst)
    (fun _ _ _ => operation_keeps_cfg) h

/-- Settles O33: no operation writes `cfg`, and an instruction is a sequence of operations. -/
theorem parametersAreNeverWritten : Obligations.ParametersAreNeverWritten := fun _ _ _ => exec_keeps_cfg

/-! ### The trace is read by `fetch` alone -/

/-- The state after is the same with another trace. -/
abbrev withTrace (l : List TableWord) (o : Host.Outcome State Fault Refusal) : Host.Outcome State Fault Refusal :=
  andThen o (fun t => .next (t.setTrace l))

theorem whenRunning_setTrace {l : List TableWord} {s : State} {k k' : Host.Outcome State Fault Refusal}
    (h : k' = withTrace l k) : whenRunning (s.setTrace l) k' = withTrace l (whenRunning s k) := by
  by_cases hf : s.env.fault = none
  · rwa [whenRunning_running hf, whenRunning_running (s := s.setTrace l) hf]
  · rw [whenRunning_halted hf, whenRunning_halted (s := s.setTrace l) hf]; rfl

theorem requireTransport_setTrace {l : List TableWord} {s : State} {k k' : Host.Outcome State Fault Refusal}
    (h : k' = withTrace l k) : requireTransport (s.setTrace l) k' = withTrace l (requireTransport s k) := by
  cases ha : s.pd.transportAttached with
  | false => rw [requireTransport_detached ha, requireTransport_detached (s := s.setTrace l) ha]; rfl
  | true => rwa [requireTransport_attached ha, requireTransport_attached (s := s.setTrace l) ha]

theorem volumeRequest_setTrace (d : Int) (l : List TableWord) (s : State) :
    volumeRequest d (s.setTrace l) = withTrace l (volumeRequest d s) := by
  unfold volumeRequest
  rw [State.setTrace_pd]
  split
  · exact requireTransport_setTrace rfl
  · rfl

theorem pollLoop_setTrace (l : List TableWord) (s : State) :
    pollLoop (rxAvail s) (s.setTrace l) = withTrace l (pollLoop (rxAvail s) s) := by
  rw [rxAvail, pollLoop_all _ s rfl]
  exact pollLoop_all _ (s.setTrace l) rfl

theorem operation_setTrace {o : Instr} (ho : isOperation o = true) (l : List TableWord) (s : State) :
    exec o (s.setTrace l) = withTrace l (exec o s) := by
  cases o with
  | qdPhaseEdge _ | qdButtonEdge _ | qdDrain | qdReadButton | pdBegin | pdIsReady | pdReadIndex | envRxArrive _ =>
    exact whenRunning_setTrace rfl
  | envReset => rfl
  | pdPoll => exact whenRunning_setTrace (requireTransport_setTrace (pollLoop_setTrace l s))
  | pdVolumeDelta d => exact whenRunning_setTrace (volumeRequest_setTrace (clickCount d) l s)
  | _ => cases ho

theorem execAll_setTrace {is : List Instr} (his : is.all isOperation = true) (l : List TableWord) (s : State) :
    execAll is (s.setTrace l) = withTrace l (execAll is s) := by
  induction is generalizing s with
  | nil => rfl
  | cons o os ih =>
    rw [List.all_cons, Bool.and_eq_true] at his
    simp only [execAll, operation_setTrace his.1]
    cases exec o s with
    | next t => exact ih his.2 t
    | fault r => rfl
    | refused r => rfl

theorem operationsOf_setTrace (l : List TableWord) (s : State) (i : Instr) :
    operationsOf (s.setTrace l) i = operationsOf s i := by
  have read : resultsAfterRead (s.setTrace l) = resultsAfterRead s := by
    rw [resultsAfterRead, resultsAfterRead, operation_setTrace rfl]
    cases exec .pdReadIndex s <;> rfl
  cases i with
  | txVolumeCmd x => simp only [operationsOf, read]
  | _ => rfl

/-- No instruction reads or writes the trace (log entry 1): with another trace it does the same. -/
theorem exec_setTrace (i : Instr) (l : List TableWord) (s : State) :
    exec i (s.setTrace l) = withTrace l (exec i s) := by
  rw [exec_eq_execAll_operationsOf, operationsOf_setTrace, execAll_setTrace (operationsOf_all_isOperation s i),
    ← exec_eq_execAll_operationsOf]

theorem exec_keeps_trace {i : Instr} {s t : State} (h : exec i s = .next t) : t.trace = s.trace := by
  have same := exec_setTrace i s.trace s
  rw [show s.setTrace s.trace = s from rfl, h, withTrace, andThen_next, next_inj] at same
  rw [same]
  rfl

/-! ### The decoder on encoded instructions -/

/-- A command frame is one byte longer than the handshake frame. -/
theorem commandFrame_ne_handshakeFrame (c : Config) (x : Byte) : commandFrame c x ≠ handshakeFrame c := by
  intro h
  have len := congrArg List.length h
  rw [handshakeFrame_length] at len
  cases len

/-- The word of a well-formed instruction decodes to the instruction (`30_encoding.md` R51 to R56). -/
theorem decode_encode {c : Config} {i : Instr} (h : i.wellFormed c = true) : decode c (encode c i) = some i := by
  cases i with
  | qdPhaseEdge p => exact (decodeTrace_word 0x0#4 (0#30 ++ p)).trans (by simp)
  | qdButtonEdge b => cases b <;> rfl
  | pdVolumeDelta d => exact decodeTrace_word 0x7#4 d
  | envRxArrive b => exact (decodeTrace_word 0xE#4 (0#24 ++ b)).trans (by simp)
  | rxReadyMarker => simp [encode, decode, decodeByte]
  | rxBlobMarker =>
    have notReady : c.blobMarker ≠ readyMarker := by simpa [Instr.wellFormed] using h
    simp [encode, decode, decodeByte, notReady]
  | rxOther b =>
    obtain ⟨notReady, notBlob⟩ : b ≠ readyMarker ∧ b ≠ c.blobMarker := by simpa [Instr.wellFormed] using h
    simp [encode, decode, decodeByte, notReady, notBlob]
  | txHsInit => simp [encode, decode, decodeFrame]
  | txVolumeCmd x =>
    have index : (commandFrame c x).getD 6 0#8 = x := rfl
    have legal : x.toNat ≤ 2 * c.steps := of_decide_eq_true h
    simp only [encode, decode, decodeFrame, index, if_neg (commandFrame_ne_handshakeFrame c x), legal, and_self, if_true]
  | _ => rfl

/-! ### Runs over a trace -/

/-- A step over the word of a well-formed instruction runs it, with the word taken. -/
theorem step_encode {s : State} {i : Instr} (h : i.wellFormed s.cfg = true) (rest : List TableWord) :
    step (s.setTrace (encode s.cfg i :: rest)) = withTrace rest (exec i s) := by
  rw [step, fetch_run (s := s.setTrace (encode s.cfg i :: rest)) rfl (decode_encode h)]
  exact exec_setTrace i rest s

theorem run_succ (n : Nat) (s : State) : core.run (n + 1) s = andThen (step s) (core.run n) := by
  refine (Host.Core.run.eq_2 core s n).trans ?_
  rw [show core.step s = step s from rfl]
  cases step s <;> rfl

/-- The machine's run over the words of well-formed instructions. -/
theorem run_encode (is : List Instr) (s : State) (ht : s.trace = []) (hw : ∀ i ∈ is, i.wellFormed s.cfg = true) :
    core.run is.length (s.setTrace (is.map (encode s.cfg))) = execAll is s := by
  induction is generalizing s with
  | nil => exact congrArg (fun l => Host.Outcome.next (s.setTrace l)) ht.symm
  | cons i is ih =>
    rw [List.length_cons, run_succ, List.map_cons, step_encode (hw i List.mem_cons_self), execAll]
    cases hi : exec i s with
    | next t =>
      change core.run is.length (t.setTrace (is.map (encode s.cfg))) = execAll is t
      rw [← exec_keeps_cfg hi]
      refine ih t ((exec_keeps_trace hi).trans ht) fun j hj => ?_
      rw [exec_keeps_cfg hi]
      exact hw j (List.mem_cons_of_mem i hj)
    | fault r => rfl
    | refused r => rfl

/-- Settles O40, by induction on the list: a step runs the first instruction, which keeps the configuration the later words
are encoded under and does not read the words behind it. -/
theorem traceRunsInOrder : Obligations.TraceRunsInOrder := fun s is ht hw => run_encode is s ht hw

/-! ### The two units -/

/-- Two states that unit QD cannot tell apart: its registers and what its operations read besides. -/
structure SameQd (s t : State) : Prop where
  cfg   : t.cfg = s.cfg
  qd    : t.qd = s.qd
  pins  : t.env.pins = s.env.pins
  fault : t.env.fault = s.env.fault

/-- Two states that unit PD cannot tell apart. -/
structure SamePd (s t : State) : Prop where
  cfg   : t.cfg = s.cfg
  pd    : t.pd = s.pd
  rx    : t.env.rx = s.env.rx
  tx    : t.env.tx = s.env.tx
  log   : t.env.log = s.env.log
  fault : t.env.fault = s.env.fault

theorem SameQd.symm {s t : State} (h : SameQd s t) : SameQd t s :=
  ⟨h.cfg.symm, h.qd.symm, h.pins.symm, h.fault.symm⟩

theorem SameQd.trans {s t u : State} (h : SameQd s t) (h' : SameQd t u) : SameQd s u :=
  ⟨h'.cfg.trans h.cfg, h'.qd.trans h.qd, h'.pins.trans h.pins, h'.fault.trans h.fault⟩

theorem SamePd.symm {s t : State} (h : SamePd s t) : SamePd t s :=
  ⟨h.cfg.symm, h.pd.symm, h.rx.symm, h.tx.symm, h.log.symm, h.fault.symm⟩

theorem SamePd.trans {s t u : State} (h : SamePd s t) (h' : SamePd t u) : SamePd s u :=
  ⟨h'.cfg.trans h.cfg, h'.pd.trans h.pd, h'.rx.trans h.rx, h'.tx.trans h.tx, h'.log.trans h.log,
    h'.fault.trans h.fault⟩

/-- A QD operation leaves what PD sees. -/
theorem qdOperation_samePd {q : Instr} {s t : State} (hq : isQdOperation q = true) (h : exec q s = .next t) :
    SamePd s t := by
  cases q with
  | qdPhaseEdge _ | qdButtonEdge _ | qdDrain | qdReadButton =>
    rcases running_cases h with rfl | rfl <;> exact ⟨rfl, rfl, rfl, rfl, rfl, rfl⟩
  | _ => cases hq

/-- A PD operation that raises no fault leaves what QD sees. -/
theorem pdOperation_sameQd {p : Instr} {s t : State} (hp : isPdOperation p = true) (h : exec p s = .next t)
    (hf : t.env.fault = s.env.fault) : SameQd s t := by
  cases p with
  | pdBegin | pdIsReady | pdReadIndex => rcases running_cases h with rfl | rfl <;> exact ⟨rfl, rfl, rfl, hf⟩
  | pdPoll => rcases pollOperation_cases h with rfl | ⟨-, rfl⟩ | ⟨-, rfl⟩ <;> exact ⟨rfl, rfl, rfl, hf⟩
  | pdVolumeDelta d =>
    rcases whenRunning_cases h with ⟨-, rfl⟩ | ⟨-, h⟩
    · exact ⟨rfl, rfl, rfl, hf⟩
    · rcases volumeRequest_cases h with ⟨-, rfl⟩ | ⟨-, -, rfl⟩ | ⟨-, -, rfl⟩ <;> exact ⟨rfl, rfl, rfl, hf⟩
  | _ => cases hp

/-- Two outcomes of one kind, whose next states a relation holds between. -/
inductive Related (R : State → State → Prop) :
    Host.Outcome State Fault Refusal → Host.Outcome State Fault Refusal → Prop where
  | next {s t : State} (h : R s t) : Related R (.next s) (.next t)
  | fault (r : Fault) : Related R (.fault r) (.fault r)
  | refused (r : Refusal) : Related R (.refused r) (.refused r)

theorem Related.exists_next {R : State → State → Prop} {o o' : Host.Outcome State Fault Refusal} {t : State}
    (hr : Related R o o') (h : o = .next t) : ∃ t', o' = .next t' ∧ R t t' := by
  subst h
  cases hr with
  | next h => exact ⟨_, rfl, h⟩

theorem whenRunning_related {R : State → State → Prop} {s t : State} {k k' : Host.Outcome State Fault Refusal}
    (hR : R s t) (hf : t.env.fault = s.env.fault) (hk : Related R k k') :
    Related R (whenRunning s k) (whenRunning t k') := by
  rw [whenRunning, whenRunning, hf]
  split
  · exact hk
  · exact .next hR

section
variable {s t : State} (hv : SameQd s t)
include hv

theorem stepDecoder_sameQd (p : PinState) :
    SameQd (stepDecoder (drivePhasePins p s)) (stepDecoder (drivePhasePins p t)) := by
  rw [stepDecoder_drive, stepDecoder_drive, hv.cfg, hv.qd]
  exact ⟨hv.cfg, by simp [State.setPreviousState, State.setAccumulatedDelta, drivePhasePins, hv.qd],
    by simp [drivePhasePins, hv.pins], hv.fault⟩

/-- What a QD operation does to the state QD sees depends on that state only. -/
theorem qdOperation_related {q : Instr} (hq : isQdOperation q = true) : Related SameQd (exec q s) (exec q t) := by
  cases q with
  | qdPhaseEdge p => exact whenRunning_related hv hv.fault (.next (stepDecoder_sameQd hv p))
  | qdButtonEdge l =>
    exact whenRunning_related hv hv.fault
      (.next ⟨hv.cfg, by simp [State.setButtonState, driveButtonPin, pinReadBtn, hv.qd],
        by simp [driveButtonPin, hv.pins], hv.fault⟩)
  | qdDrain =>
    exact whenRunning_related hv hv.fault
      (.next ⟨hv.cfg, by simp [State.setAccumulatedDelta, hv.qd], hv.pins, hv.fault⟩)
  | qdReadButton => exact whenRunning_related hv hv.fault (.next ⟨hv.cfg, hv.qd, hv.pins, hv.fault⟩)
  | _ => cases hq

end

section
variable {s t : State} (hv : SamePd s t)
include hv

theorem requireTransport_related {k k' : Host.Outcome State Fault Refusal} (hk : Related SamePd k k') :
    Related SamePd (requireTransport s k) (requireTransport t k') := by
  rw [requireTransport, requireTransport, hv.pd]
  split
  · exact hk
  · exact .next ⟨hv.cfg, hv.pd, hv.rx, hv.tx, hv.log, rfl⟩

theorem beginSession_samePd : SamePd (beginSession s) (beginSession t) := by
  rw [beginSession, beginSession, hv.cfg]
  exact ⟨hv.cfg, by simp [State.setLinkReady, txWrite, State.setTransportAttached, hv.pd], hv.rx,
    by simp [txWrite, hv.tx], hv.log, hv.fault⟩

theorem pollLoop_related : Related SamePd (pollLoop (rxAvail s) s) (pollLoop (rxAvail t) t) := by
  rw [rxAvail, rxAvail, pollLoop_all _ s rfl, pollLoop_all _ t rfl, hv.cfg, hv.pd, hv.rx, hv.log]
  exact .next ⟨hv.cfg, by simp [State.setLinkReady, hv.pd], rfl, hv.tx, rfl, hv.fault⟩

theorem volumeRequest_related (d : Int) : Related SamePd (volumeRequest d s) (volumeRequest d t) := by
  rw [volumeRequest, volumeRequest, hv.cfg, hv.pd]
  split
  · exact requireTransport_related hv
      (.next ⟨hv.cfg, by simp [State.setVolumeIndex, txWrite, hv.pd], hv.rx, by simp [txWrite, hv.tx], hv.log,
        hv.fault⟩)
  · exact .next ⟨hv.cfg, hv.pd, hv.rx, hv.tx, by simp [logEvent, hv.log], hv.fault⟩

/-- What a PD operation does to the state PD sees depends on that state only. -/
theorem pdOperation_related {p : Instr} (hp : isPdOperation p = true) : Related SamePd (exec p s) (exec p t) := by
  cases p with
  | pdBegin => exact whenRunning_related hv hv.fault (.next (beginSession_samePd hv))
  | pdPoll => exact whenRunning_related hv hv.fault (requireTransport_related hv (pollLoop_related hv))
  | pdVolumeDelta d => exact whenRunning_related hv hv.fault (volumeRequest_related hv (clickCount d))
  | pdIsReady | pdReadIndex =>
    exact whenRunning_related hv hv.fault (.next ⟨hv.cfg, hv.pd, hv.rx, hv.tx, hv.log, hv.fault⟩)
  | _ => cases hp

end

theorem Env.eq_of_parts {e f : Env} (hp : f.pins = e.pins) (hr : f.rx = e.rx) (ht : f.tx = e.tx) (hl : f.log = e.log)
    (hf : f.fault = e.fault) : f = e := by
  cases e; cases f; simp_all

/-- Settles O34, by noninterference: each operation leaves the part of the state the other unit sees, and its effect on its
own part depends on that part only, so each part ends the same in both orders. -/
theorem unitsCommute : Obligations.UnitsCommute := by
  intro q p s t hq hp h hf
  rw [execAll_pair] at h
  obtain ⟨sp, hsp, hspq⟩ := andThen_cases h
  have pdKept : SamePd sp t := qdOperation_samePd hq hspq
  have spFault : sp.env.fault = s.env.fault := pdKept.fault.symm.trans hf
  have qdKept : SameQd s sp := pdOperation_sameQd hp hsp spFault
  obtain ⟨sq, hsq, qdSame⟩ := (qdOperation_related qdKept.symm hq).exists_next hspq
  have pdKept' : SamePd s sq := qdOperation_samePd hq hsq
  obtain ⟨u, hu, pdSame⟩ := (pdOperation_related pdKept' hp).exists_next hsp
  have uFault : u.env.fault = sq.env.fault := (pdSame.fault.trans spFault).trans pdKept'.fault.symm
  have qdKept' : SameQd sq u := pdOperation_sameQd hp hu uFault
  have qdEnd : SameQd t u := qdSame.trans qdKept'
  have pdEnd : SamePd t u := pdKept.symm.trans pdSame
  have traceEnd : u.trace = t.trace := by
    rw [exec_keeps_trace hu, exec_keeps_trace hsq, exec_keeps_trace hspq, exec_keeps_trace hsp]
  refine ⟨u, ?_, qdEnd.cfg, qdEnd.qd, pdEnd.pd, ?_, traceEnd⟩
  · rw [execAll_pair, hsq, andThen_next, hu]
  · exact Env.eq_of_parts qdEnd.pins pdEnd.rx pdEnd.tx pdEnd.log pdEnd.fault

end Sys2Proof.Machine

/-! PROOFS. The statements about the state: a step runs the decoded instruction (O39), the invariant holds at reset and is kept
by every step (O36, O37), and each field is written only by its writers (O32). -/

namespace Sys2Proof.Machine

/-! ### One step -/

/-- Settles O39: the three things `fetch` can find. -/
theorem stepRunsDecodedInstruction : Obligations.StepRunsDecodedInstruction := by
  refine ⟨fun s w rest i ht hd => ?_, fun s w rest ht hd => ?_, fun s ht => ?_⟩
  · rw [step, fetch_run ht hd]; rfl
  · rw [step, fetch_malformed ht hd]
  · rw [step, fetch_nil ht]

/-! ### The invariant -/

/-- An accumulator of any admissible width holds 0. -/
theorem accInRange_zero {c : Config} (hc : c.Ok) : AccInRange c 0 := by
  obtain ⟨-, -, hacc, -⟩ := hc
  intro w hw
  have := step_in_range (hacc w hw)
  omega

theorem inv_resetOf {c : Config} (hc : c.Ok) (p : Pins) : Inv (State.resetOf c p) := by
  have ⟨_, _, _, hindex⟩ := hc
  refine ⟨hc, accInRange_zero hc, hindex, ?_, ?_, ?_, ?_, ?_⟩ <;> simp [State.resetOf]

/-- INDEX_RESET = STEPS fits its byte and is a legal index, whatever STEPS is (log entry 11). -/
theorem hardware_ok : Config.hardware.Ok := by
  have := Config.openSteps.isLt
  refine ⟨?_, ?_, ?_, ?_⟩ <;> simp only [Config.hardware]
  · omega
  · omega
  · rintro w ⟨⟩; decide
  · rw [BitVec.toNat_ofNat]; omega

/-- Settles O36: the free parameters of the hardware are admissible, and reset empties the streams. -/
theorem invariantHoldsAtReset : Obligations.InvariantHoldsAtReset :=
  ⟨inv_resetOf hardware_ok _, fun _ p hc => inv_resetOf hc p⟩

theorem frameOk_commandFrame {c : Config} {x : Byte} (hx : x.toNat ≤ 2 * c.steps) : FrameOk c (commandFrame c x) :=
  .inr ⟨rfl, rfl, hx, rfl⟩

/-- The index a request leaves is legal (`10_state.md` R17). -/
theorem indexByte_clampedIndex_le {c : Config} (hc : c.Ok) (i : Byte) (d : Int) :
    (indexByte (clampedIndex c.steps i d)).toNat ≤ 2 * c.steps := by
  obtain ⟨-, hsteps, -⟩ := hc
  have value := indexByte_clampedIndex hsteps i d
  have bounds := clamp_mem (v := (i.toNat : Int) + d) (lo := 0) (hi := 2 * (c.steps : Int)) (by omega)
  rw [clampedIndex] at value ⊢
  omega

section
variable {s : State} (hs : Inv s)
include hs

theorem inv_setAccumulatedDelta {v : Int} (hv : AccInRange s.cfg v) : Inv (s.setAccumulatedDelta v) := by
  obtain ⟨hcfg, -, hrest⟩ := hs
  exact ⟨hcfg, hv, hrest⟩

/-- The fault may be raised where there is no transport. -/
theorem inv_setFault (ha : s.pd.transportAttached = false) (k : Option FaultKind) : Inv (s.setFault k) := by
  obtain ⟨hcfg, hacc, hindex, hready, -, hsession⟩ := hs
  exact ⟨hcfg, hacc, hindex, hready, fun _ => ha, hsession⟩

/-- Readiness may change where there is a transport (`41_protocol_driver.md` R94). -/
theorem inv_setLinkReady (ha : s.pd.transportAttached = true) (v : Bool) : Inv (s.setLinkReady v) := by
  obtain ⟨hcfg, hacc, hindex, -, hrest⟩ := hs
  exact ⟨hcfg, hacc, hindex, fun _ => ha, hrest⟩

theorem inv_setVolumeIndex {x : Byte} (hx : x.toNat ≤ 2 * s.cfg.steps) : Inv (s.setVolumeIndex x) := by
  obtain ⟨hcfg, hacc, -, hrest⟩ := hs
  exact ⟨hcfg, hacc, hx, hrest⟩

/-- A further frame of a session goes behind HS_INIT. -/
theorem inv_txWrite (ha : s.pd.transportAttached = true) {f : Frame} (hf : FrameOk s.cfg f) : Inv (txWrite f s) := by
  obtain ⟨hcfg, hacc, hindex, hready, hhalt, -, hfirst, hframes⟩ := hs
  refine ⟨hcfg, hacc, hindex, hready, hhalt, fun hd => ?_, fun _ => ?_, ?_⟩
  · exact absurd (ha.symm.trans hd) (by decide)
  · simp [txWrite, List.head?_append, hfirst ha]
  · simpa [txWrite, or_imp, forall_and] using ⟨hframes, hf⟩

/-- The first frame a running machine sends is HS_INIT, whether the session is new or begun again (`41_protocol_driver.md`
R85). -/
theorem inv_beginSession (hrun : s.env.fault = none) : Inv (beginSession s) := by
  obtain ⟨hcfg, hacc, hindex, -, -, hnone, hfirst, hframes⟩ := hs
  have first : (s.env.tx ++ [handshakeFrame s.cfg]).head? = some (handshakeFrame s.cfg) := by
    cases ha : s.pd.transportAttached with
    | false => rw [hnone ha]; rfl
    | true => simp [List.head?_append, hfirst ha, handshakeFrame]
  refine ⟨hcfg, hacc, hindex, fun _ => rfl, fun hf => absurd hrun hf, nofun, fun _ => first, ?_⟩
  rw [beginSession, State.setLinkReady_env, State.setLinkReady_cfg]
  simpa [txWrite, or_imp, forall_and] using ⟨hframes, .inl rfl⟩

theorem inv_volumeRequest {d : Int} {t : State} (h : volumeRequest d s = .next t) : Inv t := by
  rcases volumeRequest_cases h with ⟨-, rfl⟩ | ⟨-, ha, rfl⟩ | ⟨-, ha, rfl⟩
  · exact hs
  · exact inv_setFault hs ha _
  · have legal := indexByte_clampedIndex_le hs.1 s.pd.volumeIndex d
    exact inv_txWrite (inv_setVolumeIndex hs legal) ha (frameOk_commandFrame legal)

theorem operation_keeps_inv {o : Instr} {t : State} (ho : isOperation o = true) (h : exec o s = .next t) : Inv t := by
  cases o with
  | qdButtonEdge _ | qdReadButton | pdIsReady | pdReadIndex | envRxArrive _ =>
    rcases running_cases h with rfl | rfl <;> exact hs
  | qdPhaseEdge p =>
    rcases running_cases h with rfl | rfl
    · exact hs
    · rw [stepDecoder_drive]
      exact inv_setAccumulatedDelta hs (sat_mem _)
  | qdDrain =>
    rcases running_cases h with rfl | rfl
    · exact hs
    · exact inv_setAccumulatedDelta hs (accInRange_zero hs.1)
  | pdBegin =>
    rcases whenRunning_cases h with ⟨-, rfl⟩ | ⟨hrun, h⟩
    · exact hs
    · rw [← next_inj.mp h]
      exact inv_beginSession hs hrun
  | pdPoll =>
    rcases pollOperation_cases h with rfl | ⟨ha, rfl⟩ | ⟨ha, rfl⟩
    · exact hs
    · exact inv_setFault hs ha _
    · exact inv_setLinkReady hs ha _
  | pdVolumeDelta d =>
    rcases whenRunning_cases h with ⟨-, rfl⟩ | ⟨-, h⟩
    · exact hs
    · exact inv_volumeRequest hs h
  | envReset =>
    rw [← next_inj.mp h]
    exact inv_resetOf hs.1 s.env.pins
  | _ => cases ho

end

theorem exec_keeps_inv {i : Instr} {s t : State} (hs : Inv s) (h : exec i s = .next t) : Inv t :=
  exec_of_operations (R := fun s t => Inv s → Inv t) (fun _ => id) (fun _ _ _ hst htu => htu ∘ hst)
    (fun _ _ _ ho h hs => operation_keeps_inv hs ho h) h hs

/-- Settles O37: each operation keeps the invariant, so every instruction does, and taking a word from the trace touches no
field the invariant speaks of. -/
theorem invariantKeptByEveryStep : Obligations.InvariantKeptByEveryStep := by
  intro s t hs h
  rcases step_cases h with ⟨-, rfl⟩ | ⟨w, rest, i, -, -, h⟩
  · exact hs
  · exact exec_keeps_inv (s := s.setTrace rest) hs h

/-! ### The access matrix -/

/-- The fields of the state whose writers `10_state.md` R22 names, the pins (log entry 12) and the results (log entry 7). -/
inductive StateField where
  | previousState | accumulatedDelta | buttonState
  | transportAttached | linkReady | volumeIndex
  | rx | tx | log | fault | pins | returns

/-- Two states that agree in a field. -/
def StateField.Same : StateField → State → State → Prop
  | .previousState,     s, t => t.qd.previousState = s.qd.previousState
  | .accumulatedDelta,  s, t => t.qd.accumulatedDelta = s.qd.accumulatedDelta
  | .buttonState,       s, t => t.qd.buttonState = s.qd.buttonState
  | .transportAttached, s, t => t.pd.transportAttached = s.pd.transportAttached
  | .linkReady,         s, t => t.pd.linkReady = s.pd.linkReady
  | .volumeIndex,       s, t => t.pd.volumeIndex = s.pd.volumeIndex
  | .rx,                s, t => t.env.rx = s.env.rx
  | .tx,                s, t => t.env.tx = s.env.tx
  | .log,               s, t => t.env.log = s.env.log
  | .fault,             s, t => t.env.fault = s.env.fault
  | .pins,              s, t => t.env.pins = s.env.pins
  | .returns,           s, t => t.returns = s.returns

theorem StateField.same_refl (f : StateField) (s : State) : f.Same s s := by cases f <;> rfl

theorem StateField.Same.trans {f : StateField} {s t u : State} (h : f.Same s t) (h' : f.Same t u) : f.Same s u := by
  cases f <;> exact Eq.trans h' h

/-- The W entries of `10_state.md` R22 outside the row of ENV_RESET, which writes every column. The fault's writers are those of
`60_exceptions.md` R110, the pins' those of log entry 12, and the results' those of `30_encoding.md` R62. -/
inductive Writes : Instr → StateField → Prop where
  | edgePreviousState (p : PinState) : Writes (.qdPhaseEdge p) .previousState
  | edgeAccumulatedDelta (p : PinState) : Writes (.qdPhaseEdge p) .accumulatedDelta
  | edgePins (p : PinState) : Writes (.qdPhaseEdge p) .pins
  | buttonButtonState (l : Bool) : Writes (.qdButtonEdge l) .buttonState
  | buttonPins (l : Bool) : Writes (.qdButtonEdge l) .pins
  | drainAccumulatedDelta : Writes .qdDrain .accumulatedDelta
  | beginTransportAttached : Writes .pdBegin .transportAttached
  | beginLinkReady : Writes .pdBegin .linkReady
  | beginTx : Writes .pdBegin .tx
  | pollLinkReady : Writes .pdPoll .linkReady
  | pollRx : Writes .pdPoll .rx
  | pollLog : Writes .pdPoll .log
  | pollFault : Writes .pdPoll .fault
  | volumeVolumeIndex (d : BitVec 32) : Writes (.pdVolumeDelta d) .volumeIndex
  | volumeTx (d : BitVec 32) : Writes (.pdVolumeDelta d) .tx
  | volumeLog (d : BitVec 32) : Writes (.pdVolumeDelta d) .log
  | volumeFault (d : BitVec 32) : Writes (.pdVolumeDelta d) .fault
  | arriveRx (b : Byte) : Writes (.envRxArrive b) .rx
  | result {o : Instr} (h : deliversResult o = true) : Writes o .returns

/-- An operation leaves the fields the matrix does not let it write. -/
theorem operation_same_of_not_writes {o : Instr} {f : StateField} {s t : State} (ho : isOperation o = true)
    (hr : o ≠ .envReset) (hw : ¬ Writes o f) (h : exec o s = .next t) : f.Same s t := by
  cases o with
  | qdPhaseEdge p =>
    cases f with
    | previousState | accumulatedDelta | pins => exact absurd (by constructor) hw
    | _ => rcases running_cases h with rfl | rfl <;> rfl
  | qdButtonEdge l =>
    cases f with
    | buttonState | pins => exact absurd (by constructor) hw
    | _ => rcases running_cases h with rfl | rfl <;> rfl
  | qdDrain =>
    cases f with
    | accumulatedDelta => exact absurd .drainAccumulatedDelta hw
    | returns => exact absurd (.result rfl) hw
    | _ => rcases running_cases h with rfl | rfl <;> rfl
  | qdReadButton | pdIsReady | pdReadIndex =>
    cases f with
    | returns => exact absurd (.result rfl) hw
    | _ => rcases running_cases h with rfl | rfl <;> rfl
  | pdBegin =>
    cases f with
    | transportAttached | linkReady | tx => exact absurd (by constructor) hw
    | _ => rcases running_cases h with rfl | rfl <;> rfl
  | pdPoll =>
    cases f with
    | linkReady | rx | log | fault => exact absurd (by constructor) hw
    | _ => rcases pollOperation_cases h with rfl | ⟨-, rfl⟩ | ⟨-, rfl⟩ <;> rfl
  | pdVolumeDelta d =>
    rcases whenRunning_cases h with ⟨-, rfl⟩ | ⟨-, h⟩
    · exact f.same_refl t
    · cases f with
      | volumeIndex | tx | log | fault => exact absurd (by constructor) hw
      | _ => rcases volumeRequest_cases h with ⟨-, rfl⟩ | ⟨-, -, rfl⟩ | ⟨-, -, rfl⟩ <;> rfl
  | envRxArrive b =>
    cases f with
    | rx => exact absurd (.arriveRx b) hw
    | _ => rcases running_cases h with rfl | rfl <;> rfl
  | envReset => exact absurd rfl hr
  | _ => cases ho

/-- The three streams that only grow: the frames sent, the log and the results. -/
structure Grows (s t : State) : Prop where
  tx      : s.env.tx <+: t.env.tx
  log     : s.env.log <+: t.env.log
  returns : s.returns <+: t.returns

theorem Grows.refl (s : State) : Grows s s := ⟨List.prefix_rfl, List.prefix_rfl, List.prefix_rfl⟩

theorem Grows.trans {s t u : State} (h : Grows s t) (h' : Grows t u) : Grows s u :=
  ⟨h.tx.trans h'.tx, h.log.trans h'.log, h.returns.trans h'.returns⟩

/-- Every operation but reset only appends to the streams. -/
theorem operation_grows {o : Instr} {s t : State} (ho : isOperation o = true) (hr : o ≠ .envReset)
    (h : exec o s = .next t) : Grows s t := by
  cases o with
  | qdPhaseEdge _ | qdButtonEdge _ | envRxArrive _ =>
    rcases running_cases h with rfl | rfl <;> exact ⟨List.prefix_rfl, List.prefix_rfl, List.prefix_rfl⟩
  | qdDrain | qdReadButton | pdIsReady | pdReadIndex =>
    rcases running_cases h with rfl | rfl
    · exact .refl t
    · exact ⟨List.prefix_rfl, List.prefix_rfl, List.prefix_append ..⟩
  | pdBegin =>
    rcases running_cases h with rfl | rfl
    · exact .refl t
    · exact ⟨List.prefix_append .., List.prefix_rfl, List.prefix_rfl⟩
  | pdPoll =>
    rcases pollOperation_cases h with rfl | ⟨-, rfl⟩ | ⟨-, rfl⟩
    · exact .refl t
    · exact ⟨List.prefix_rfl, List.prefix_rfl, List.prefix_rfl⟩
    · exact ⟨List.prefix_rfl, List.prefix_append .., List.prefix_rfl⟩
  | pdVolumeDelta d =>
    rcases whenRunning_cases h with ⟨-, rfl⟩ | ⟨-, h⟩
    · exact .refl t
    rcases volumeRequest_cases h with ⟨-, rfl⟩ | ⟨-, -, rfl⟩ | ⟨-, -, rfl⟩
    · exact ⟨List.prefix_rfl, List.prefix_append .., List.prefix_rfl⟩
    · exact ⟨List.prefix_rfl, List.prefix_rfl, List.prefix_rfl⟩
    · exact ⟨List.prefix_append .., List.prefix_rfl, List.prefix_rfl⟩
  | envReset => exact absurd rfl hr
  | _ => cases ho

/-- Reset is among the operations of no other instruction. -/
theorem envReset_notMem_operationsOf {i : Instr} (hi : i ≠ .envReset) (s : State) : .envReset ∉ operationsOf s i := by
  cases i <;> simp [operationsOf, turn] at hi ⊢

section
variable {R : State → State → Prop} (refl : ∀ s, R s s) (trans : ∀ s t u, R s t → R t u → R s u)
include refl trans

/-- What each member of a run keeps between the state before and the state after, the run keeps. -/
theorem execAll_of_mem {is : List Instr} {s t : State} (member : ∀ o ∈ is, ∀ s t, exec o s = .next t → R s t)
    (h : execAll is s = .next t) : R s t := by
  induction is generalizing s with
  | nil => cases h; exact refl _
  | cons o os ih =>
    rw [List.forall_mem_cons] at member
    cases ho : exec o s with
    | next u =>
      rw [execAll_cons ho] at h
      exact trans s u t (member.1 s u ho) (ih member.2 h)
    | fault r => simp [execAll, ho] at h
    | refused r => simp [execAll, ho] at h

/-- What each operation an instruction runs keeps, the instruction keeps; it runs no reset unless it is one. -/
theorem exec_of_operationsOf {i : Instr} {s t : State} (hi : i ≠ .envReset)
    (member : ∀ o ∈ operationsOf s i, isOperation o = true → o ≠ .envReset → ∀ u v, exec o u = .next v → R u v)
    (h : exec i s = .next t) : R s t := by
  rw [exec_eq_execAll_operationsOf] at h
  refine execAll_of_mem refl trans (fun o ho => member o ho ?_ ?_) h
  · exact List.all_eq_true.mp (operationsOf_all_isOperation s i) o ho
  · rintro rfl
    exact envReset_notMem_operationsOf hi s ho

end

theorem exec_same_of_not_writes {i : Instr} {f : StateField} {s t : State} (hi : i ≠ .envReset) (h : exec i s = .next t)
    (hw : ∀ o, Writes o f → o ∉ operationsOf s i) : f.Same s t :=
  exec_of_operationsOf f.same_refl (fun _ _ _ => StateField.Same.trans) hi
    (fun o ho hop hr _ _ => operation_same_of_not_writes hop hr (hw o · ho)) h

theorem exec_grows {i : Instr} {s t : State} (hi : i ≠ .envReset) (h : exec i s = .next t) : Grows s t :=
  exec_of_operationsOf Grows.refl (fun _ _ _ => Grows.trans) hi (fun _ _ hop hr _ _ => operation_grows hop hr) h

/-- An instruction delivers a result exactly when it runs an operation that returns one (`30_encoding.md` R62). -/
theorem deliversResult_eq_any (s : State) (i : Instr) : deliversResult i = (operationsOf s i).any deliversResult := by
  cases i <;> rfl

/-- Settles O32: a field none of an instruction's operations may write is the same after each of them, and the streams grow with
each of them. -/
theorem fieldsChangeOnlyByTheirWriters : Obligations.FieldsChangeOnlyByTheirWriters := by
  intro i s t h hi
  have same (f : StateField) (hw : ∀ o, Writes o f → o ∉ operationsOf s i) : f.Same s t := exec_same_of_not_writes hi h hw
  obtain ⟨⟨newTx, htx⟩, ⟨newLog, hlog⟩, ⟨newReturns, hreturns⟩⟩ := exec_grows hi h
  refine ⟨fun hedge => same .previousState ?_, fun hedge hdrain => same .accumulatedDelta ?_,
    fun hbutton => same .buttonState ?_, fun hbegin => same .transportAttached ?_,
    fun hbegin hpoll => same .linkReady ?_, fun hvolume => same .volumeIndex ?_, fun hpoll harrive => same .rx ?_,
    fun hbegin hvolume => same .tx ?_, fun hpoll hvolume => ⟨same .log ?_, same .fault ?_⟩,
    fun hedge hbutton => same .pins ?_, exec_keeps_trace h, fun hresult => same .returns ?_,
    ⟨newTx, htx.symm⟩, ⟨newLog, hlog.symm⟩, ⟨newReturns, hreturns.symm⟩⟩
  · exact fun | _, .edgePreviousState p => hedge p
  · exact fun
      | _, .edgeAccumulatedDelta p => hedge p
      | _, .drainAccumulatedDelta => hdrain
  · exact fun | _, .buttonButtonState l => hbutton l
  · exact fun | _, .beginTransportAttached => hbegin
  · exact fun
      | _, .beginLinkReady => hbegin
      | _, .pollLinkReady => hpoll
  · exact fun | _, .volumeVolumeIndex d => hvolume d
  · exact fun
      | _, .pollRx => hpoll
      | _, .arriveRx b => harrive b
  · exact fun
      | _, .beginTx => hbegin
      | _, .volumeTx d => hvolume d
  · exact fun
      | _, .pollLog => hpoll
      | _, .volumeLog d => hvolume d
  · exact fun
      | _, .pollFault => hpoll
      | _, .volumeFault d => hvolume d
  · exact fun
      | _, .edgePins p => hedge p
      | _, .buttonPins l => hbutton l
  · rw [deliversResult_eq_any s, List.any_eq_false] at hresult
    exact fun | o, .result hdelivers, ho => hresult o ho hdelivers

end Sys2Proof.Machine

/-! PROOFS. The encodings (`30_encoding.md`): the decoder inverts the encoder (O38), the trace words by match and mask (O41,
O42), the command frame (O25), the forms of the transition table (O2), and what the item rows do (O44, O45, O46). -/

namespace Sys2Proof.Machine

/-! ### The encoder on decoded words -/

theorem decodeTrace_of_top {w : BitVec 40} (h : w.extractLsb' 36 4 ≠ 0#4) : decodeTrace w = none := if_pos h

theorem eq_ofNat_of_toNat_eq {n k : Nat} {v : BitVec n} (h : v.toNat = k) : v = BitVec.ofNat n k := by
  rw [← h, BitVec.ofNat_toNat, BitVec.setWidth_eq]

/-- A trace word that decodes is the encoding of the instruction it decodes to: its selector is the instruction's, and the bits of
its argument outside the operand are zero (`30_encoding.md` R51). -/
theorem encode_of_decodeTrace {c : Config} {w : BitVec 40} {i : Instr} (h : decodeTrace w = some i) :
    i.wellFormed c = true ∧ encode c i = .trace40 w := by
  have top : w.extractLsb' 36 4 = 0#4 := by
    by_contra top
    rw [decodeTrace_of_top top] at h
    cases h
  obtain ⟨op, arg, rfl⟩ : ∃ op arg, w = (0#4 ++ op) ++ arg := ⟨_, _, by rw [← top, trace_fields]⟩
  rw [decodeTrace_word] at h
  -- The cases are the selectors in R50's order: 1, 2, 8 and 10 have an operand, 12 is every reserved one.
  split at h
  case h_1 hop =>
    obtain ⟨high, ⟨⟩⟩ := Option.ite_none_right_eq_some.mp h
    obtain rfl := eq_ofNat_of_toNat_eq hop
    exact ⟨rfl, congrArg (traceWord 0x0#4) (by rw [← high, arg_split2])⟩
  case h_2 hop =>
    obtain ⟨high, ⟨⟩⟩ := Option.ite_none_right_eq_some.mp h
    obtain rfl := eq_ofNat_of_toNat_eq hop
    exact ⟨rfl, congrArg (traceWord 0x1#4) (by rw [← high, arg_split1])⟩
  case h_8 hop =>
    cases h
    obtain rfl := eq_ofNat_of_toNat_eq hop
    exact ⟨rfl, rfl⟩
  case h_10 hop =>
    obtain ⟨high, ⟨⟩⟩ := Option.ite_none_right_eq_some.mp h
    obtain rfl := eq_ofNat_of_toNat_eq hop
    exact ⟨rfl, congrArg (traceWord 0xE#4) (by rw [← high, arg_split8])⟩
  case h_12 => cases h
  case h_3 hop | h_4 hop | h_5 hop | h_6 hop | h_7 hop | h_9 hop | h_11 hop =>
    obtain ⟨rfl, ⟨⟩⟩ := Option.ite_none_right_eq_some.mp h
    obtain rfl := eq_ofNat_of_toNat_eq hop
    exact ⟨rfl, rfl⟩

/-- Every table index is the index of the row it decodes to (`30_encoding.md` R47). -/
theorem encode_decodeIndex (c : Config) (j : BitVec 4) :
    (decodeIndex j).wellFormed c = true ∧ encode c (decodeIndex j) = .ttIndex j := by
  obtain ⟨⟨k, hk⟩⟩ := j
  interval_cases k <;> exact ⟨rfl, rfl⟩

/-- Every byte is a byte of the class it decodes to (`30_encoding.md` R56; log entry 14). -/
theorem encode_decodeByte (c : Config) (b : Byte) :
    (decodeByte c b).wellFormed c = true ∧ encode c (decodeByte c b) = .rxByte b := by
  unfold decodeByte
  split_ifs with hready hblob
  · exact ⟨rfl, congrArg _ hready.symm⟩
  · exact ⟨by simpa [Instr.wellFormed, ← hblob] using hready, congrArg _ hblob.symm⟩
  · exact ⟨by simp [Instr.wellFormed, hready, hblob], rfl⟩

/-- A frame that decodes is the frame of the row it decodes to (`30_encoding.md` R52, R53). -/
theorem encode_of_decodeFrame {c : Config} {bs : Frame} {i : Instr} (h : decodeFrame c bs = some i) :
    i.wellFormed c = true ∧ encode c i = .txFrame bs := by
  by_cases hinit : bs = handshakeFrame c
  · rw [decodeFrame, if_pos hinit] at h
    cases h
    exact ⟨rfl, congrArg _ hinit.symm⟩
  · rw [decodeFrame, if_neg hinit] at h
    obtain ⟨⟨hframe, hlegal⟩, ⟨⟩⟩ := Option.ite_none_right_eq_some.mp h
    exact ⟨decide_eq_true hlegal, congrArg _ hframe.symm⟩

/-- A word that decodes is the encoding of the instruction it decodes to. -/
theorem encode_of_decode {c : Config} {w : TableWord} {i : Instr} (h : decode c w = some i) :
    i.wellFormed c = true ∧ encode c i = w := by
  cases w with
  | trace40 w => exact encode_of_decodeTrace h
  | ttIndex j => cases h; exact encode_decodeIndex c j
  | rxByte b => cases h; exact encode_decodeByte c b
  | txFrame bs => exact encode_of_decodeFrame h

/-- Settles O38: `decode_encode` one way, `encode_of_decode`, format by format, the other. -/
theorem decodeInvertsEncode : Obligations.DecodeInvertsEncode := fun _ _ _ =>
  ⟨encode_of_decode, fun ⟨hw, he⟩ => he ▸ decode_encode hw⟩

/-! ### The trace words -/

/-- A word that meets a match under a mask of its `m` top bits is the match followed by the word's own low bits. -/
theorem eq_append_of_and_mask {m n : Nat} {w : BitVec (m + n)} {hit : BitVec m}
    (h : w &&& (BitVec.allOnes m ++ 0#n) = hit ++ 0#n) : w = hit ++ w.extractLsb' 0 n := by
  ext k hk
  have bit := congrArg (·[k]) h
  simp only [BitVec.getElem_and, BitVec.getElem_append] at bit ⊢
  split <;> simp_all

/-- A trace word that decodes is in the row of its instruction, which is one of R51's. -/
theorem exists_traceRow_of_decode {c : Config} {w : BitVec 40} {i : Instr} (h : decode c (.trace40 w) = some i) :
    ∃ r ∈ traceRows, w &&& r.2 = r.1 := by
  obtain ⟨-, he⟩ := encode_of_decode h
  cases i with
  | qdPhaseEdge p =>
    cases he
    exact ⟨(0x0000000000#40, 0xFFFFFFFFFC#40), by decide, Laws.TableRow.qdPhaseEdge p c⟩
  | qdButtonEdge l =>
    cases he
    exact ⟨(0x0100000000#40, 0xFFFFFFFFFE#40), by decide, Laws.TableRow.qdButtonEdge l c⟩
  | pdVolumeDelta d =>
    cases he
    exact ⟨(0x0700000000#40, 0xFF00000000#40), by decide, Laws.TableRow.pdVolumeDelta d c⟩
  | envRxArrive b =>
    cases he
    exact ⟨(0x0E00000000#40, 0xFFFFFFFF00#40), by decide, Laws.TableRow.envRxArrive b c⟩
  | qdDrain | qdReadButton | pdBegin | pdPoll | pdIsReady | pdReadIndex | envReset => cases he; decide
  | _ => cases he

/-- A row without an operand has one word, its match. -/
theorem decode_of_fixed_row {c : Config} {w hit : BitVec 40} {i : Instr} (h : w &&& 0xFFFFFFFFFF#40 = hit)
    (hi : decode c (.trace40 hit) = some i) : decode c (.trace40 w) = some i := by
  obtain rfl : w = hit := (BitVec.and_allOnes (x := w)).symm.trans h
  exact hi

/-- A row with an operand `v` in the low `n` bits of its words: the must-be-zero bits belong to the match, and so a word of the row
is the encoding of the operand found there. -/
theorem decode_of_operand_row {c : Config} {m n : Nat} {mk : BitVec (m + n) → TableWord} {w : BitVec (m + n)} {hit : BitVec m}
    {f : BitVec n → Instr} (hf : ∀ v, (f v).wellFormed c = true ∧ encode c (f v) = mk (hit ++ v))
    (h : w &&& (BitVec.allOnes m ++ 0#n) = hit ++ 0#n) : decode c (mk w) = some (f (w.extractLsb' 0 n)) := by
  obtain ⟨wellFormed, encoded⟩ := hf (w.extractLsb' 0 n)
  rw [← eq_append_of_and_mask h] at encoded
  exact encoded ▸ decode_encode wellFormed

theorem decode_of_phaseEdge_row {c : Config} {w : BitVec 40} (h : w &&& 0xFFFFFFFFFC#40 = 0x0000000000#40) :
    decode c (.trace40 w) = some (.qdPhaseEdge (w.extractLsb' 0 2)) := by
  have words (v : PinState) : ((0#4 ++ 0x0#4) ++ (0#30 ++ v) : BitVec 40) = 0#38 ++ v :=
    (BitVec.append_assoc (x₁ := 0x00#8) (x₂ := 0#30)).symm
  exact decode_of_operand_row (m := 38) (n := 2) (mk := .trace40) (f := .qdPhaseEdge)
    (fun v => ⟨rfl, congrArg TableWord.trace40 (words v)⟩) h

theorem decode_of_buttonEdge_row {c : Config} {w : BitVec 40} (h : w &&& 0xFFFFFFFFFE#40 = 0x0100000000#40) :
    decode c (.trace40 w) = some (.qdButtonEdge (w.getLsbD 0)) := by
  have words : ∀ v : BitVec 1, ((0#4 ++ 0x1#4) ++ (0#31 ++ BitVec.ofBool (v.getLsbD 0)) : BitVec 40) = 0x80000000#39 ++ v := by
    decide
  have level : (w.extractLsb' 0 1).getLsbD 0 = w.getLsbD 0 := by simp
  rw [← level]
  exact decode_of_operand_row (m := 39) (n := 1) (mk := .trace40) (f := fun v => .qdButtonEdge (v.getLsbD 0))
    (fun v => ⟨rfl, congrArg TableWord.trace40 (words v)⟩) h

theorem decode_of_volumeDelta_row {c : Config} {w : BitVec 40} (h : w &&& 0xFF00000000#40 = 0x0700000000#40) :
    decode c (.trace40 w) = some (.pdVolumeDelta (w.extractLsb' 0 32)) :=
  decode_of_operand_row (m := 8) (n := 32) (mk := .trace40) (f := .pdVolumeDelta) (fun _ => ⟨rfl, rfl⟩) h

theorem decode_of_rxArrive_row {c : Config} {w : BitVec 40} (h : w &&& 0xFFFFFFFF00#40 = 0x0E00000000#40) :
    decode c (.trace40 w) = some (.envRxArrive (w.extractLsb' 0 8)) := by
  have words (b : Byte) : ((0#4 ++ 0xE#4) ++ (0#24 ++ b) : BitVec 40) = 0x0E000000#32 ++ b :=
    (BitVec.append_assoc (x₁ := 0x0E#8) (x₂ := 0#24)).symm
  exact decode_of_operand_row (m := 32) (n := 8) (mk := .trace40) (f := .envRxArrive)
    (fun b => ⟨rfl, congrArg TableWord.trace40 (words b)⟩) h

/-- Settles O41: a word under a row's mask is the encoding of the row's operand, and a word that decodes is in a row. -/
theorem traceWordsDecodeByMatchAndMask : Obligations.TraceWordsDecodeByMatchAndMask := by
  intro c w
  refine ⟨decode_of_phaseEdge_row, decode_of_buttonEdge_row, (decode_of_fixed_row · rfl), (decode_of_fixed_row · rfl),
    (decode_of_fixed_row · rfl), (decode_of_fixed_row · rfl), (decode_of_fixed_row · rfl), decode_of_volumeDelta_row,
    (decode_of_fixed_row · rfl), decode_of_rxArrive_row, (decode_of_fixed_row · rfl), fun hno => ?_⟩
  cases h : decode c (.trace40 w) with
  | none => rfl
  | some i =>
    obtain ⟨r, hr, hit⟩ := exists_traceRow_of_decode h
    exact absurd hit (hno r hr)

/-- The selectors 0x9 to 0xD belong to no operation (`30_encoding.md` R50). -/
theorem decodeTrace_reserved {op : BitVec 4} (h : 0x9#4 ≤ op ∧ op ≤ 0xD#4) (arg : BitVec 32) :
    decodeTrace ((0#4 ++ op) ++ arg) = none := by
  have selectors : ∀ op : BitVec 4, 0x9#4 ≤ op ∧ op ≤ 0xD#4 →
      op = 0x9#4 ∨ op = 0xA#4 ∨ op = 0xB#4 ∨ op = 0xC#4 ∨ op = 0xD#4 := by decide
  rcases selectors op h with rfl | rfl | rfl | rfl | rfl <;> exact decodeTrace_word _ arg

/-- Settles O42: the decoder gives such a word no instruction. -/
theorem reservedSelectorsAreRefused : Obligations.ReservedSelectorsAreRefused := by
  intro s w rest ht h
  have refused : decodeTrace w = none := by
    by_cases top : w.extractLsb' 36 4 = 0#4
    · rw [← trace_fields w, top]
      exact decodeTrace_reserved (h.resolve_left (absurd top)) _
    · exact decodeTrace_of_top top
  rw [step, fetch_malformed ht refused]

/-! ### The command frame -/

theorem sum8_nil : sum8 [] = 0#8 := rfl

theorem sum8_cons (b : Byte) (bs : Frame) : sum8 (b :: bs) = b + sum8 bs := by
  apply BitVec.eq_of_toNat_eq
  simp [sum8, BitVec.toNat_add]

/-- `sum8` is additive, so that the fixed header enters the checksum as one constant (`30_encoding.md` R54). -/
theorem sum8_append (as bs : Frame) : sum8 (as ++ bs) = sum8 as + sum8 bs := by
  induction as with
  | nil => exact (BitVec.zero_add _).symm
  | cons a as ih => rw [List.cons_append, sum8_cons, sum8_cons, ih, BitVec.add_assoc]

theorem sum8_singleton (b : Byte) : sum8 [b] = b := by
  rw [sum8_cons, sum8_nil, BitVec.add_zero]

/-- The checksum of the command frame, from the header's sum and the index. -/
theorem commandFrame_checksum (c : Config) (x : Byte) :
    (commandFrame c x)[7]? = some (sum8 (headerBytes c.cmdHdr) + x) := by
  rw [← sum8_singleton x, ← sum8_append, sum8_singleton]
  rfl

theorem sum8_headerBytes (h : CommandHeader) : sum8 (headerBytes h) = h.f0 + h.f1 + h.f2 + h.p0 + h.p1 + h.cc := by
  simp only [headerBytes, sum8_cons, sum8_nil, BitVec.add_zero, BitVec.add_assoc]

/-- Settles O25: the layout by R53, the three forms of the checksum by the additivity of `sum8`. -/
theorem commandFrameChecksum : Obligations.CommandFrameChecksum := by
  intro c x
  refine ⟨rfl, rfl, rfl, ?_, rfl, commandFrame_checksum c x⟩
  rw [commandFrame_checksum, sum8_headerBytes]

/-! ### The transition table -/

/-- The flat address is row by row (`30_encoding.md` R47). -/
theorem romIndex_toNat (p c : PinState) : (romIndex p c).toNat = 4 * p.toNat + c.toNat := by
  have := c.isLt
  rw [romIndex, BitVec.toNat_append, ← Nat.shiftLeft_add_eq_or_of_lt c.isLt, Nat.shiftLeft_eq]
  omega

/-! The ROM and the other forms of the table, entry by entry (`30_encoding.md` R48, R49, R61). -/

theorem romCode_ne : ∀ p c : PinState, romCode (romIndex p c) ≠ 0b10#2 := by decide
theorem tableStep_eq_printedTable : ∀ p c : PinState, tableStep p c = printedTable p c := by decide
theorem phaseStep_eq_printedTable : ∀ p c : PinState, phaseStep p c = printedTable p c := by decide
theorem bitStep_eq_printedTable : ∀ p c : PinState, bitStep p c = printedTable p c := by decide

/-- Settles O2: the address by arithmetic, each form against the printed table on its sixteen entries. -/
theorem transitionTableFormsAgree : Obligations.TransitionTableFormsAgree :=
  ⟨rfl, fun p c => ⟨romIndex_toNat p c, romCode_ne p c, tableStep_eq_printedTable p c, tableStep_eq_printedTable p c,
    phaseStep_eq_printedTable p c, bitStep_eq_printedTable p c⟩⟩

/-! ### The table rows -/

/-- A same-state sample adds nothing (`30_encoding.md` R48). -/
theorem printedTable_self : ∀ p : PinState, printedTable p p = 0 := by decide

/-- The phase edge on a running machine, field by field (`40_quadrature_decoder.md` R65). -/
theorem phaseEdge_running {s : State} (h : s.env.fault = none) (p : PinState) :
    phaseEdge p s = .next { s with
      qd := { s.qd with
        accumulatedDelta := sat s.cfg.accWidth (s.qd.accumulatedDelta + printedTable s.qd.previousState p)
        previousState := p }
      env := { s.env with pins := { s.env.pins with a := phaseA p, b := phaseB p } } } := by
  rw [phaseEdge, whenRunning_running h, stepDecoder_drive, tableStep_eq_printedTable]
  rfl

/-- The two edges of a turn on a running machine: the second starts where the first has left the decoder. -/
theorem turnThrough_running {s : State} (h : s.env.fault = none) (p c : PinState) :
    turnThrough p c s = .next { s with
      qd := { s.qd with
        accumulatedDelta := sat s.cfg.accWidth
          (sat s.cfg.accWidth (s.qd.accumulatedDelta + printedTable s.qd.previousState p) + printedTable p c)
        previousState := c }
      env := { s.env with pins := { s.env.pins with a := phaseA c, b := phaseB c } } } := by
  rw [turnThrough, phaseEdge_running h, andThen_next]
  exact phaseEdge_running (by exact h) c

/-- Each table row is the turn through its entry, with the step R48 prints there (log entry 3). -/
theorem exec_tableRow {r : Instr × PinState × PinState × Int} (hr : r ∈ tableRows) (s : State) :
    exec r.1 s = turnThrough r.2.1 r.2.2.1 s ∧ r.2.2.2 = printedTable r.2.1 r.2.2.1 := by
  unfold tableRows at hr
  fin_cases hr <;> exact ⟨rfl, rfl⟩

/-- Settles O44: the turn's first edge takes the decoder to the row's previous state, and from that state it adds nothing. -/
theorem tableRowsRunThroughTheirEntry : Obligations.TableRowsRunThroughTheirEntry := by
  intro r hr s hrun
  obtain ⟨row, printed⟩ := exec_tableRow hr s
  rw [row, turnThrough_running hrun, printed]
  refine ⟨rfl, fun hprev hacc => ?_⟩
  rw [hprev, printedTable_self, Int.add_zero, sat_of_mem hacc]
  rfl

/-! ### The inbound byte rows -/

theorem pollOperation_attached {s : State} (h : s.env.fault = none) (ha : s.pd.transportAttached = true) :
    pollOperation s = .next (((s.setRx []).setLog (s.env.log ++ blobEvents s.cfg s.env.rx)).setLinkReady
      (s.pd.linkReady || s.env.rx.contains readyMarker)) := by
  rw [pollOperation, whenRunning_running h, requireTransport_attached ha, rxAvail, pollLoop_all _ s rfl]

theorem pollOperation_detached {s : State} (h : s.env.fault = none) (ha : s.pd.transportAttached = false) :
    pollOperation s = .next (s.setFault (some .transportUnavailable)) := by
  rw [pollOperation, whenRunning_running h, requireTransport_detached ha]

/-- `FEED b` on a running machine is a poll with the byte last in the queue. -/
theorem feed_running {s : State} (h : s.env.fault = none) (b : Byte) :
    feed b s = pollOperation (s.setRx (s.env.rx ++ [b])) := by
  rw [feed, arriveByte, whenRunning_running h, andThen_next]

theorem exec_rxRow {i : Instr} {s : State} {b : Byte}
    (h : (i = .rxReadyMarker ∧ b = 0xFB#8) ∨ (i = .rxBlobMarker ∧ b = s.cfg.blobMarker) ∨ i = .rxOther b) :
    exec i s = feed b s := by
  rcases h with ⟨rfl, rfl⟩ | ⟨rfl, rfl⟩ | rfl <;> rfl

/-- Settles O45: the poll scans the whole queue, the row's byte last, or raises the fault. -/
theorem inboundByteRowsScanTheirByte : Obligations.InboundByteRowsScanTheirByte := by
  intro i s b hrun hi
  rw [exec_rxRow hi, feed_running hrun]
  exact ⟨pollOperation_attached (s := s.setRx (s.env.rx ++ [b])) hrun,
    pollOperation_detached (s := s.setRx (s.env.rx ++ [b])) hrun⟩

/-! ### The outbound frame rows -/

theorem volumeRequest_notReady {s : State} (h : s.pd.linkReady = false) (d : Int) :
    volumeRequest d s = .next (logEvent (.dropNotReady d) s) := by
  rw [volumeRequest, h]
  rfl

theorem volumeRequest_detached {s : State} (h : s.pd.linkReady = true) (ha : s.pd.transportAttached = false) (d : Int) :
    volumeRequest d s = .next (s.setFault (some .transportUnavailable)) := by
  rw [volumeRequest, if_pos h, requireTransport_detached ha]

theorem volumeRequest_attached {s : State} (h : s.pd.linkReady = true) (ha : s.pd.transportAttached = true) (d : Int) :
    volumeRequest d s = .next (txWrite (commandFrame s.cfg (indexByte (clampedIndex s.cfg.steps s.pd.volumeIndex d)))
      (s.setVolumeIndex (indexByte (clampedIndex s.cfg.steps s.pd.volumeIndex d)))) := by
  rw [volumeRequest, if_pos h, requireTransport_attached ha]

/-- Settles O46: the command row's request asks for exactly the difference to the index read, which the clamp leaves alone when
the index is legal. -/
theorem outboundFrameRowsSendTheirFrame : Obligations.OutboundFrameRowsSendTheirFrame := by
  intro s x hrun _
  have row : exec (.txVolumeCmd x) s = volumeRequest ((x.toNat : Int) - (s.pd.volumeIndex.toNat : Int))
      (returnValue (.index s.pd.volumeIndex.toNat) s) := execTxVolumeCmd_running hrun x
  rw [row]
  refine ⟨?_, fun hx hr ha => ?_, fun hr ha => ?_, fun hr => ?_⟩
  · exact whenRunning_running hrun _
  · rw [volumeRequest_attached (s := returnValue _ s) hr ha, returnValue_pd, returnValue_cfg, indexByte_of_mem hx]
    rfl
  · exact volumeRequest_detached (s := returnValue _ s) hr ha _
  · exact volumeRequest_notReady (s := returnValue _ s) hr _

end Sys2Proof.Machine

/-! PROOFS. Unit QD (`40_quadrature_decoder.md`): the table's laws (O9), the four operations (O1, O3, O5, O6, O7), runs of phase
edges (O8, O10, O11, O13), the drained values over any run (O12), and totality (O35). -/

namespace Sys2Proof.Machine

/-! ### The table's laws -/

theorem printedTable_mem (p c : PinState) : -1 ≤ printedTable p c ∧ printedTable p c ≤ 1 := by
  rw [← tableStep_eq_printedTable]
  exact tableStep_mem p c

/-! Entry by entry (`30_encoding.md` R48). -/

theorem printedTable_swap : ∀ p c : PinState, printedTable c p = -printedTable p c := by decide
theorem printedTable_complement : ∀ p : PinState, printedTable p (p ^^^ 0b11#2) = 0 := by decide
theorem printedTable_swapPhases :
    ∀ p c : PinState, printedTable (swapPhases p) (swapPhases c) = -printedTable p c := by decide

/-- One transition by phase: forward, backward, or neither. -/
theorem printedTable_eq_quarterStep : ∀ p c : PinState,
    printedTable p c = (if phi c == phi p + 1#2 then 1 else 0) - (if phi c == phi p - 1#2 then 1 else 0) := by decide

/-- One transition modulo 4: the phase travelled, and 2 more where the table cannot tell the direction. -/
theorem printedTable_phase_mod_four : ∀ p c : PinState,
    (printedTable p c - (((phi c).toNat : Int) - ((phi p).toNat : Int) +
      2 * (if decide (NonAdjacent p c) then 1 else 0))) % 4 = 0 := by decide

/-- Settles O9: the ROM holds the printed table, which is antisymmetric entry by entry. -/
theorem bounceOutAndBackCancels : Obligations.BounceOutAndBackCancels := by
  intro p c
  simp only [tableStep_eq_printedTable]
  exact ⟨printedTable_swap p c, printedTable_self p, by rw [printedTable_swap p c, Int.add_right_neg]⟩

/-! ### The four operations -/

/-- Settles O1: the edge on a running machine, read off field by field. -/
theorem phaseEdgeAddsTableStep : Obligations.PhaseEdgeAddsTableStep := fun _ p hrun =>
  ⟨_, phaseEdge_running hrun p, rfl, rfl, rfl, rfl, rfl, rfl, rfl, rfl, rfl⟩

/-- Settles O3: the handler stores the inverse of the level it finds at the pin. -/
theorem buttonEdgeStoresInverseLevel : Obligations.ButtonEdgeStoresInverseLevel := fun _ _ hrun =>
  ⟨_, whenRunning_running hrun _, rfl, rfl, rfl, rfl, rfl, rfl, rfl, rfl, rfl⟩

/-- Settles O5: the drain's effect on a running machine. -/
theorem drainReturnsAndZeroes : Obligations.DrainReturnsAndZeroes := fun _ hrun => whenRunning_running hrun _

/-- Settles O6: the read's effect on a running machine. -/
theorem buttonReadReturnsBit : Obligations.ButtonReadReturnsBit := fun _ hrun => whenRunning_running hrun _

theorem sat_of_accMax_le {w : Nat} {v : Int} (h : accMax w ≤ v) : sat (some w) v = accMax w := by
  have := accMin_le_accMax w
  rw [sat, clamp_eq_max_min _ _ _ this]
  omega

theorem sat_of_le_accMin {w : Nat} {v : Int} (h : v ≤ accMin w) : sat (some w) v = accMin w := by
  have := accMin_le_accMax w
  rw [sat, clamp_eq_max_min _ _ _ this]
  omega

/-- Settles O7: a step beyond a bound saturates there, and a sum in the range is left alone. -/
theorem accumulatorSaturatesAtBounds : Obligations.AccumulatorSaturatesAtBounds := by
  intro s p w hrun hw _
  refine ⟨_, phaseEdge_running hrun p, rfl, fun hacc hstep => ?_, fun hacc hstep => ?_, fun hlow hhigh => ?_⟩ <;>
    dsimp only <;> rw [hw]
  · exact sat_of_accMax_le (by omega)
  · exact sat_of_le_accMin (by omega)
  · exact clamp_of_mem hlow hhigh

/-! ### The saturated fold over a sample sequence -/

theorem lastState_cons (p c : PinState) (cs : List PinState) : lastState p (c :: cs) = lastState c cs :=
  List.getLastD_cons

theorem lastState_append (p : PinState) (ps qs : List PinState) :
    lastState p (ps ++ qs) = lastState (lastState p ps) qs := by
  induction ps generalizing p with
  | nil => rfl
  | cons c cs ih => rw [List.cons_append, lastState_cons, lastState_cons, ih]

theorem saturatedFold_append (w : Option Nat) (a : Int) (p : PinState) (ps qs : List PinState) :
    saturatedFold w a p (ps ++ qs) = saturatedFold w (saturatedFold w a p ps) (lastState p ps) qs := by
  induction ps generalizing a p with
  | nil => rfl
  | cons c cs ih => rw [List.cons_append, saturatedFold, saturatedFold, lastState_cons, ih]

/-- The fold stays in the range it starts in. -/
theorem accInRange_saturatedFold {c : Config} {a : Int} (h : AccInRange c a) (p : PinState) (ps : List PinState) :
    AccInRange c (saturatedFold c.accWidth a p ps) := by
  induction ps generalizing a p with
  | nil => exact h
  | cons q qs ih => exact ih (sat_mem _) q

/-- While no value leaves the range the fold is the plain sum (`40_quadrature_decoder.md` R73). -/
theorem saturatedFold_of_unsaturated {w : Option Nat} {a : Int} {p : PinState} {ps : List PinState}
    (h : Unsaturated w a p ps) : saturatedFold w a p ps = a + stepSum p ps := by
  induction ps generalizing a p with
  | nil => exact (Int.add_zero a).symm
  | cons c cs ih =>
    obtain ⟨hsat, hrest⟩ := h
    rw [saturatedFold, hsat, ih hrest, stepSum, Int.add_assoc]

theorem unsaturated_none (a : Int) (p : PinState) (ps : List PinState) : Unsaturated none a p ps := by
  induction ps generalizing a p with
  | nil => trivial
  | cons c cs ih => exact ⟨rfl, ih _ c⟩

/-- Each sample moves the accumulator by at most 1, so that `n` samples from `a` stay within `|a| + n`. -/
theorem unsaturated_of_natAbs_add_length_le {w : Nat} {a : Int} {p : PinState} {ps : List PinState}
    (h : (a.natAbs : Int) + (ps.length : Int) ≤ accMax w) : Unsaturated (some w) a p ps := by
  induction ps generalizing a p with
  | nil => trivial
  | cons c cs ih =>
    have step := printedTable_mem p c
    have low : accMin w = -accMax w - 1 := by unfold accMin accMax; omega
    rw [List.length_cons] at h
    exact ⟨clamp_of_mem (by omega) (by omega), ih (by omega)⟩

/-! ### Runs of phase edges -/

/-- The decoder's registers after a sample sequence, under an accumulator width (`40_quadrature_decoder.md` R73). -/
def Qd.afterSamples (w : Option Nat) (q : Qd) (ps : List PinState) : Qd :=
  { q with
    accumulatedDelta := saturatedFold w q.accumulatedDelta q.previousState ps
    previousState := lastState q.previousState ps }

theorem Qd.afterSamples_append (w : Option Nat) (q : Qd) (ps qs : List PinState) :
    q.afterSamples w (ps ++ qs) = (q.afterSamples w ps).afterSamples w qs := by
  simp only [Qd.afterSamples, saturatedFold_append, lastState_append]

/-- Samples that bring the decoder back to where they find it may be inserted anywhere. -/
theorem Qd.afterSamples_insert {w : Option Nat} {q : Qd} {ps rs : List PinState}
    (h : (q.afterSamples w ps).afterSamples w rs = q.afterSamples w ps) (qs : List PinState) :
    q.afterSamples w (ps ++ rs ++ qs) = q.afterSamples w (ps ++ qs) := by
  rw [Qd.afterSamples_append, Qd.afterSamples_append, h, ← Qd.afterSamples_append]

/-- A run of phase edges on a running machine completes, with the decoder after its samples (`40_quadrature_decoder.md` R65). -/
theorem execAll_turn {s : State} (h : s.env.fault = none) (ps : List PinState) :
    ∃ t, execAll (turn ps) s = .next t ∧ t.qd = s.qd.afterSamples s.cfg.accWidth ps := by
  induction ps generalizing s with
  | nil => exact ⟨s, rfl, rfl⟩
  | cons p ps ih =>
    obtain ⟨u, hedge, huqd, -, hcfg, -, -, -, -, -, hfault⟩ := phaseEdgeAddsTableStep s p h
    obtain ⟨t, hrun, hqd⟩ := ih (hfault.trans h)
    refine ⟨t, (execAll_cons hedge (turn ps)).trans hrun, ?_⟩
    rw [hqd, hcfg, huqd]
    simp only [Qd.afterSamples, saturatedFold, lastState_cons]

/-- The plain sum over a run in which no sample saturates. -/
theorem execAll_turn_of_unsaturated {s : State} {ps : List PinState} (h : s.env.fault = none)
    (hsat : Unsaturated s.cfg.accWidth s.qd.accumulatedDelta s.qd.previousState ps) :
    ∃ t, execAll (turn ps) s = .next t ∧
      t.qd.accumulatedDelta = s.qd.accumulatedDelta + stepSum s.qd.previousState ps := by
  obtain ⟨t, hrun, hqd⟩ := execAll_turn h ps
  exact ⟨t, hrun, by rw [hqd]; exact saturatedFold_of_unsaturated hsat⟩

/-- Settles O8: a run of edges is the fold, which is the plain sum where no value can leave the range. -/
theorem accumulationIsSaturatedFold : Obligations.AccumulationIsSaturatedFold := by
  refine ⟨fun s ps hrun => ?_, by decide, by decide⟩
  obtain ⟨t, hexec, hqd⟩ := execAll_turn hrun ps
  refine ⟨t, hexec, ?_⟩
  rw [hqd]
  refine ⟨rfl, rfl, fun hw => ?_, fun w hw _ hbound => ?_⟩ <;> rw [hw]
  · exact saturatedFold_of_unsaturated (unsaturated_none _ _ ps)
  · exact saturatedFold_of_unsaturated (unsaturated_of_natAbs_add_length_le hbound)

/-! ### Bounces -/

/-- A sample that counts 0 leaves an accumulator in range as it is. -/
theorem saturatedFold_cons_of_step_zero {c : Config} {a : Int} (h : AccInRange c a) {p q : PinState}
    (hstep : printedTable p q = 0) (qs : List PinState) :
    saturatedFold c.accWidth a p (q :: qs) = saturatedFold c.accWidth a q qs := by
  rw [saturatedFold, hstep, Int.add_zero, sat_of_mem h]

theorem printedTable_complement_back (p : PinState) : printedTable (p ^^^ 0b11#2) p = 0 := by
  rw [printedTable_swap p, printedTable_complement, Int.neg_zero]

section
variable {c : Config} {q : Qd} (h : AccInRange c q.accumulatedDelta)
include h

/-- An even run of non-adjacent samples returns the decoder to where it left it (`40_quadrature_decoder.md` R71). -/
theorem Qd.afterSamples_bounceRun (k : Nat) : q.afterSamples c.accWidth (bounceRun q.previousState k) = q := by
  induction k with
  | zero => rfl
  | succ k ih =>
    refine Eq.trans ?_ ih
    simp only [bounceRun, Qd.afterSamples, lastState_cons,
      saturatedFold_cons_of_step_zero h (printedTable_complement _),
      saturatedFold_cons_of_step_zero h (printedTable_complement_back _)]

/-- A same-state sample leaves the decoder as it is. -/
theorem Qd.afterSamples_sameState : q.afterSamples c.accWidth [q.previousState] = q := by
  simp only [Qd.afterSamples, saturatedFold_cons_of_step_zero h (printedTable_self _)]
  rfl

end

/-- One step from 0 saturates under no admissible width. -/
theorem sat_printedTable {c : Config} (hc : c.Ok) (p q : PinState) :
    sat c.accWidth (0 + printedTable p q) = printedTable p q := by
  obtain ⟨-, -, hwidth, -⟩ := hc
  rw [Int.zero_add]
  refine sat_of_mem fun w hw => ?_
  have := step_in_range (hwidth w hw)
  have := printedTable_mem p q
  omega

/-- Settles O10: the decoder after a bounce is the decoder before it, so what follows runs alike; the odd run counts its one
backward step. -/
theorem evenBounceRunsLeaveNoTrace : Obligations.EvenBounceRunsLeaveNoTrace := by
  refine ⟨printedTable_complement, fun s ps qs k hrun hacc _ => ?_, fun s hrun hc hzero hprev => ?_⟩
  · obtain ⟨t, ht, htq⟩ := execAll_turn hrun (ps ++ qs)
    obtain ⟨u, hu, huq⟩ := execAll_turn hrun (ps ++ bounceRun (lastState s.qd.previousState ps) k ++ qs)
    obtain ⟨v, hv, hvq⟩ := execAll_turn hrun (ps ++ [lastState s.qd.previousState ps] ++ qs)
    have range : AccInRange s.cfg (s.qd.afterSamples s.cfg.accWidth ps).accumulatedDelta :=
      accInRange_saturatedFold hacc _ ps
    refine ⟨t, u, v, ht, hu, hv, ?_, ?_⟩
    · rw [huq, htq]
      exact Qd.afterSamples_insert (Qd.afterSamples_bounceRun range k) qs
    · rw [hvq, htq]
      exact Qd.afterSamples_insert (Qd.afterSamples_sameState range) qs
  · obtain ⟨t, ht, htq⟩ := execAll_turn hrun [0b11#2]
    obtain ⟨u, hu, huq⟩ := execAll_turn hrun [0b01#2, 0b11#2]
    refine ⟨t, u, ht, ?_, hu, ?_⟩
    · rw [htq, Qd.afterSamples, hzero, hprev]
      exact sat_printedTable hc 0b10#2 0b11#2
    · rw [huq, Qd.afterSamples, hzero, hprev, saturatedFold, sat_printedTable hc]
      exact sat_printedTable hc 0b01#2 0b11#2

/-! ### The phase law -/

/-- Modulo 4 the steps are the phase travelled plus twice the non-adjacent transitions (`40_quadrature_decoder.md` R72). -/
theorem stepSum_phase_mod_four (p : PinState) (ps : List PinState) :
    (stepSum p ps - (((phi (lastState p ps)).toNat : Int) - ((phi p).toNat : Int)
      + 2 * (countSteps (fun a b => decide (NonAdjacent a b)) p ps : Int))) % 4 = 0 := by
  induction ps generalizing p with
  | nil => simp [stepSum, countSteps, lastState]
  | cons c cs ih =>
    have first := printedTable_phase_mod_four p c
    have rest := ih c
    rw [stepSum, countSteps, lastState_cons]
    push_cast
    omega

/-- The quarter steps forward less those backward; a non-adjacent transition is neither. -/
theorem stepSum_eq_quarterSteps (p : PinState) (ps : List PinState) :
    stepSum p ps = (countSteps (fun a b => phi b == phi a + 1#2) p ps : Int)
      - (countSteps (fun a b => phi b == phi a - 1#2) p ps : Int) := by
  induction ps generalizing p with
  | nil => rfl
  | cons c cs ih =>
    rw [stepSum, countSteps, countSteps, ih c, printedTable_eq_quarterStep]
    push_cast
    omega

/-- Settles O11: the table obeys the phase law entry by entry, and both sides add up along the sequence. -/
theorem stepSumFollowsPhase : Obligations.StepSumFollowsPhase := by
  refine ⟨fun p ps => ⟨stepSum_phase_mod_four p ps, fun _ => stepSum_eq_quarterSteps p ps, fun hnone hclosed => ?_⟩,
    by decide, by decide, fun s ps hrun hsat => execAll_turn_of_unsaturated hrun hsat⟩
  have phase := stepSum_phase_mod_four p ps
  rw [hnone, hclosed] at phase
  omega

/-! ### Miswired pins -/

/-- Between the two states of tied phases every transition is same-state or non-adjacent. -/
theorem printedTable_tied {p c : PinState} (hp : p = 0b00#2 ∨ p = 0b11#2) (hc : c = 0b00#2 ∨ c = 0b11#2) :
    printedTable p c = 0 := by
  rcases hp with rfl | rfl <;> rcases hc with rfl | rfl <;> rfl

theorem saturatedFold_tied {c : Config} {a : Int} (h : AccInRange c a) {p : PinState} {ps : List PinState}
    (hp : p = 0b00#2 ∨ p = 0b11#2) (hps : ∀ q ∈ ps, q = 0b00#2 ∨ q = 0b11#2) :
    saturatedFold c.accWidth a p ps = a := by
  induction ps generalizing p with
  | nil => rfl
  | cons q qs ih =>
    obtain ⟨hq, hqs⟩ := List.forall_mem_cons.mp hps
    rw [saturatedFold_cons_of_step_zero h (printedTable_tied hp hq), ih hq hqs]

/-- Between two states the table is the difference of the steps from the first. -/
theorem printedTable_add_of_two_states {p c q r : PinState} (hq : q = p ∨ q = c) (hr : r = p ∨ r = c) :
    printedTable p q + printedTable q r = printedTable p r := by
  have back := printedTable_swap p c
  rcases hq with rfl | rfl <;> rcases hr with rfl | rfl <;> simp only [printedTable_self] <;> omega

/-- Along samples of two states the sum from the first is always the step to the latest (`40_quadrature_decoder.md` R75). -/
theorem printedTable_add_stepSum_of_two_states {p c q : PinState} {ps : List PinState} (hq : q = p ∨ q = c)
    (hps : ∀ r ∈ ps, r = p ∨ r = c) :
    printedTable p q + stepSum q ps = 0 ∨ printedTable p q + stepSum q ps = printedTable p c := by
  induction ps generalizing q with
  | nil =>
    rw [stepSum, Int.add_zero]
    rcases hq with rfl | rfl
    · exact .inl (printedTable_self q)
    · exact .inr rfl
  | cons r rs ih =>
    obtain ⟨hr, hrs⟩ := List.forall_mem_cons.mp hps
    rw [stepSum, ← Int.add_assoc, printedTable_add_of_two_states hq hr]
    exact ih hr hrs

/-- Settles O13: swapped phases entry by entry, tied phases count nothing at each sample, and a stuck phase leaves two states,
between which the steps cancel. -/
theorem miswiredPinsNeverAccumulate : Obligations.MiswiredPinsNeverAccumulate := by
  refine ⟨printedTable_swapPhases, fun s ps hrun _ hacc htied => ?_, fun p c ps _ hps => ?_, printedTable_mem⟩
  · obtain ⟨hp, hps⟩ := List.forall_mem_cons.mp htied
    obtain ⟨t, hexec, hqd⟩ := execAll_turn hrun ps
    exact ⟨t, hexec, by rw [hqd]; exact saturatedFold_tied hacc hp hps⟩
  · have sum := printedTable_add_stepSum_of_two_states (c := c) (.inl rfl) hps
    rwa [printedTable_self, Int.zero_add] at sum

/-! ### Totality -/

theorem whenRunning_completes (s : State) {k : Host.Outcome State Fault Refusal} (h : ∃ t, k = .next t) :
    ∃ t, whenRunning s k = .next t := by
  by_cases hf : s.env.fault = none
  · rwa [whenRunning_running hf]
  · exact ⟨s, whenRunning_halted hf k⟩

theorem requireTransport_completes (s : State) {k : Host.Outcome State Fault Refusal} (h : ∃ t, k = .next t) :
    ∃ t, requireTransport s k = .next t := by
  cases ha : s.pd.transportAttached with
  | false => exact ⟨_, requireTransport_detached ha k⟩
  | true => rwa [requireTransport_attached ha]

theorem volumeRequest_completes (d : Int) (s : State) : ∃ t, volumeRequest d s = .next t := by
  unfold volumeRequest
  split
  · exact requireTransport_completes s ⟨_, rfl⟩
  · exact ⟨_, rfl⟩

theorem operation_completes {o : Instr} (ho : isOperation o = true) (s : State) : ∃ t, exec o s = .next t := by
  cases o with
  | qdPhaseEdge _ | qdButtonEdge _ | qdDrain | qdReadButton | pdBegin | pdIsReady | pdReadIndex | envRxArrive _ =>
    exact whenRunning_completes s ⟨_, rfl⟩
  | pdPoll => exact whenRunning_completes s (requireTransport_completes s ⟨_, pollLoop_all _ s rfl⟩)
  | pdVolumeDelta d => exact whenRunning_completes s (volumeRequest_completes (clickCount d) s)
  | envReset => exact ⟨_, rfl⟩
  | _ => cases ho

theorem execAll_completes {is : List Instr} (h : ∀ i ∈ is, ∀ s, ∃ t, exec i s = .next t) (s : State) :
    ∃ t, execAll is s = .next t := by
  induction is generalizing s with
  | nil => exact ⟨s, rfl⟩
  | cons i is ih =>
    obtain ⟨hi, his⟩ := List.forall_mem_cons.mp h
    obtain ⟨t, ht⟩ := hi s
    rw [execAll_cons ht]
    exact ih his t

/-- Settles O35: each operation completes in every state, and an instruction is a sequence of operations. -/
theorem everyInstructionCompletes : Obligations.EveryInstructionCompletes := by
  intro i s
  rw [exec_eq_execAll_operationsOf]
  exact execAll_completes
    (fun o ho => operation_completes (List.all_eq_true.mp (operationsOf_all_isOperation s i) o ho)) s

/-! ### The halted machine -/

theorem operation_halted {o : Instr} {s : State} (ho : isOperation o = true) (hr : o ≠ .envReset) (h : s.Halted) :
    exec o s = .next s := by
  cases o with
  | envReset => exact absurd rfl hr
  | qdPhaseEdge _ | qdButtonEdge _ | qdDrain | qdReadButton | pdBegin | pdPoll | pdIsReady | pdVolumeDelta _
  | pdReadIndex | envRxArrive _ => exact whenRunning_halted h _
  | _ => cases ho

theorem execAll_of_fixed {is : List Instr} {s : State} (h : ∀ i ∈ is, exec i s = .next s) :
    execAll is s = .next s := by
  induction is with
  | nil => rfl
  | cons i is ih =>
    obtain ⟨hi, his⟩ := List.forall_mem_cons.mp h
    rw [execAll_cons hi, ih his]

/-- Nothing but a reset acts on a halted machine (`60_exceptions.md` R111). -/
theorem exec_halted {i : Instr} {s : State} (hr : i ≠ .envReset) (h : s.Halted) : exec i s = .next s := by
  rw [exec_eq_execAll_operationsOf]
  refine execAll_of_fixed fun o ho => operation_halted ?_ ?_ h
  · exact List.all_eq_true.mp (operationsOf_all_isOperation s i) o ho
  · rintro rfl
    exact envReset_notMem_operationsOf hr s ho

theorem execAll_halted {is : List Instr} {s : State} (hr : .envReset ∉ is) (h : s.Halted) : execAll is s = .next s :=
  execAll_of_fixed fun _ hi => exec_halted (fun heq => hr (heq ▸ hi)) h

/-! ### Drained values -/

theorem drainedSum_append (rs : List Result) (r : Result) : drainedSum (rs ++ [r]) = drainedSum rs + drainedValue r := by
  induction rs with
  | nil => exact Int.add_comm _ _
  | cons r' rs ih => rw [List.cons_append, drainedSum, drainedSum, ih, Int.add_assoc]

/-- Only the drain returns a value that counts. -/
theorem operation_keeps_drainedSum {o : Instr} {s t : State} (ho : isOperation o = true) (hr : o ≠ .envReset)
    (hd : o ≠ .qdDrain) (h : exec o s = .next t) : drainedSum t.returns = drainedSum s.returns := by
  by_cases hresult : deliversResult o = true
  · cases o with
    | qdDrain => exact absurd rfl hd
    | qdReadButton | pdIsReady | pdReadIndex =>
      rcases running_cases h with rfl | rfl
      · rfl
      · exact (drainedSum_append _ _).trans (Int.add_zero _)
    | txVolumeCmd _ => cases ho
    | _ => cases hresult
  · have same : StateField.returns.Same s t := operation_same_of_not_writes ho hr (fun | .result hw => hresult hw) h
    exact congrArg drainedSum same

theorem qdDrain_notMem_operationsOf {i : Instr} (hi : i ≠ .qdDrain) (s : State) : .qdDrain ∉ operationsOf s i := by
  cases i <;> simp [operationsOf, turn] at hi ⊢

theorem exec_keeps_drainedSum {i : Instr} {s t : State} (hi : i ≠ .envReset) (hd : i ≠ .qdDrain)
    (h : exec i s = .next t) : drainedSum t.returns = drainedSum s.returns := by
  refine exec_of_operationsOf (R := fun s t => drainedSum t.returns = drainedSum s.returns) (fun _ => rfl)
    (fun _ _ _ hst htu => htu.trans hst) hi (fun o ho hop hr _ _ => operation_keeps_drainedSum hop hr ?_) h
  rintro rfl
  exact qdDrain_notMem_operationsOf hd s ho

/-- An instruction with samples is the run of their phase edges. -/
theorem operationsOf_of_phaseSamples {i : Instr} (h : phaseSamples i ≠ []) (s : State) :
    operationsOf s i = turn (phaseSamples i) := by
  cases i with
  | qdPhaseEdge _ | tt0000 | tt0001 | tt0010 | tt0011 | tt0100 | tt0101 | tt0110 | tt0111
  | tt1000 | tt1001 | tt1010 | tt1011 | tt1100 | tt1101 | tt1110 | tt1111 => rfl
  | _ => exact absurd rfl h

/-- An instruction without samples runs no phase edge. -/
theorem qdPhaseEdge_notMem_operationsOf {i : Instr} (h : phaseSamples i = []) (s : State) (p : PinState) :
    .qdPhaseEdge p ∉ operationsOf s i := by
  cases i <;> simp [operationsOf, phaseSamples] at h ⊢

/-- Every instruction but reset and the drain moves the decoder's two counting registers by its samples and by nothing else. -/
theorem exec_counts_samples {i : Instr} {s t : State} (hi : i ≠ .envReset) (hd : i ≠ .qdDrain)
    (hrun : s.env.fault = none) (h : exec i s = .next t) :
    t.qd.accumulatedDelta = saturatedFold s.cfg.accWidth s.qd.accumulatedDelta s.qd.previousState (phaseSamples i) ∧
      t.qd.previousState = lastState s.qd.previousState (phaseSamples i) := by
  by_cases hnone : phaseSamples i = []
  · have noEdge := qdPhaseEdge_notMem_operationsOf hnone s
    have acc : StateField.accumulatedDelta.Same s t := exec_same_of_not_writes hi h fun
      | _, .edgeAccumulatedDelta p => noEdge p
      | _, .drainAccumulatedDelta => qdDrain_notMem_operationsOf hd s
    have prev : StateField.previousState.Same s t := exec_same_of_not_writes hi h fun
      | _, .edgePreviousState p => noEdge p
    rw [hnone]
    exact ⟨acc, prev⟩
  · obtain ⟨u, hexec, hqd⟩ := execAll_turn hrun (phaseSamples i)
    rw [exec_eq_execAll_operationsOf, operationsOf_of_phaseSamples hnone, hexec, next_inj] at h
    rw [← h, hqd]
    exact ⟨rfl, rfl⟩

/-- What one instruction does to the accumulator, the decoder's state and the drained sum, where no edge saturates
(`40_quadrature_decoder.md` R65, R67). -/
theorem exec_conserves {i : Instr} {s t : State} (hi : i ≠ .envReset) (hrun : s.env.fault = none)
    (hsat : Unsaturated s.cfg.accWidth s.qd.accumulatedDelta s.qd.previousState (phaseSamples i))
    (h : exec i s = .next t) :
    t.qd.accumulatedDelta =
        (if i = .qdDrain then 0 else s.qd.accumulatedDelta + stepSum s.qd.previousState (phaseSamples i)) ∧
      t.qd.previousState = lastState s.qd.previousState (phaseSamples i) ∧
      drainedSum t.returns + t.qd.accumulatedDelta =
        drainedSum s.returns + s.qd.accumulatedDelta + stepSum s.qd.previousState (phaseSamples i) := by
  by_cases hd : i = .qdDrain
  · subst hd
    rw [drainReturnsAndZeroes s hrun, next_inj] at h
    subst h
    exact ⟨rfl, rfl, by simp [drainedSum_append, drainedValue, phaseSamples, stepSum]⟩
  · obtain ⟨hacc, hprev⟩ := exec_counts_samples hi hd hrun h
    rw [saturatedFold_of_unsaturated hsat] at hacc
    rw [if_neg hd, hacc, exec_keeps_drainedSum hi hd h, Int.add_assoc]
    exact ⟨rfl, hprev, rfl⟩

/-- Settles O12, by induction on the list: each instruction moves what is drained and held together by its steps, and none of a
run that ends unhalted leaves the machine halted. -/
theorem drainsConserveEveryStep : Obligations.DrainsConserveEveryStep := by
  intro s t is hrun hreset hsat hexec hend
  induction is generalizing s with
  | nil => cases hexec; exact (Int.add_zero _).symm
  | cons i is ih =>
    obtain ⟨hi, his⟩ : .envReset ≠ i ∧ .envReset ∉ is := by simpa using hreset
    obtain ⟨hfirst, hrest⟩ := hsat
    obtain ⟨u, hu⟩ := everyInstructionCompletes i s
    rw [execAll_cons hu] at hexec
    have running : u.env.fault = none := by
      by_contra halted
      rw [execAll_halted his halted, next_inj] at hexec
      exact halted (hexec ▸ hend)
    obtain ⟨hacc, hprev, hheld⟩ := exec_conserves (Ne.symm hi) hrun hfirst hu
    rw [← hacc, ← hprev, ← exec_keeps_cfg hu] at hrest
    rw [ih u running his hrest hexec, hheld, hprev, edgeSum, Int.add_assoc]

end Sys2Proof.Machine

/-! PROOFS. Unit PD (`41_protocol_driver.md`): the operations without a choice (O17, O19, O20, O28), the poll (O18), the volume
request (O21, O23, O24), and the session (O26, O27). -/

namespace Sys2Proof.Machine

/-! ### The operations without a choice -/

/-- Settles O17: past the halt check PD_BEGIN has one effect. -/
theorem beginAttachesSendsUnreadies : Obligations.BeginAttachesSendsUnreadies := fun _ hrun => whenRunning_running hrun _

/-- Settles O19: the answer does not depend on the transport. -/
theorem readinessQueryReturnsBit : Obligations.ReadinessQueryReturnsBit := fun _ hrun => whenRunning_running hrun _

/-- Settles O20: the result is the index byte's unsigned value. -/
theorem indexReadReturnsIndex : Obligations.IndexReadReturnsIndex := fun _ hrun => whenRunning_running hrun _

/-- Settles O28: the arrival asks for no transport. -/
theorem arrivingByteJoinsQueue : Obligations.ArrivingByteJoinsQueue := fun _ _ hrun => whenRunning_running hrun _

/-! ### The poll -/

/-- Settles O18: the transport decides between the fault and the scan of the whole queue. -/
theorem pollScansEveryByteOrFaults : Obligations.PollScansEveryByteOrFaults := fun _ hrun =>
  ⟨pollOperation_detached hrun, pollOperation_attached hrun⟩

/-! ### The volume request -/

theorem pdVolumeDelta_running {s : State} (h : s.env.fault = none) (d : BitVec 32) :
    exec (.pdVolumeDelta d) s = volumeRequest d.toInt s := whenRunning_running h _

/-- The index a request leaves, on unbounded integers (`41_protocol_driver.md` R89). -/
theorem indexByte_clampedIndex_eq_max_min {c : Config} (hc : c.Ok) (i : Byte) (d : Int) :
    ((indexByte (clampedIndex c.steps i d)).toNat : Int) = max 0 (min ((i.toNat : Int) + d) (2 * (c.steps : Int))) := by
  obtain ⟨-, hsteps, -⟩ := hc
  rw [indexByte_clampedIndex hsteps, clampedIndex, clamp_eq_max_min _ _ _ (by omega)]

/-- Settles O21: readiness is asked before the transport, and the byte holds the exact clamp. -/
theorem volumeRequestDropsOrSends : Obligations.VolumeRequestDropsOrSends := by
  intro s d hrun hok
  rw [pdVolumeDelta_running hrun]
  exact ⟨fun hready => volumeRequest_notReady hready _, fun hready ha => volumeRequest_detached hready ha _,
    fun hready ha => ⟨_, indexByte_clampedIndex_eq_max_min hok _ _, volumeRequest_attached hready ha _⟩⟩

/-- A state in which a volume request is applied and sent. -/
structure Accepts (s : State) : Prop where
  running  : s.env.fault = none
  ok       : s.cfg.Ok
  ready    : s.pd.linkReady = true
  attached : s.pd.transportAttached = true

/-- An applied request clamps the index and sends one frame, and the next request is applied too. -/
theorem Accepts.request {s : State} (h : Accepts s) (d : BitVec 32) :
    ∃ t, exec (.pdVolumeDelta d) s = .next t ∧ Accepts t ∧ t.cfg = s.cfg ∧
      (t.pd.volumeIndex.toNat : Int) = max 0 (min ((s.pd.volumeIndex.toNat : Int) + d.toInt) (2 * (s.cfg.steps : Int))) ∧
      t.env.tx.length = s.env.tx.length + 1 := by
  obtain ⟨hrun, hok, hready, ha⟩ := h
  obtain ⟨-, -, sends⟩ := volumeRequestDropsOrSends s d hrun hok
  obtain ⟨new, hnew, hexec⟩ := sends hready ha
  exact ⟨_, hexec, ⟨hrun, hok, hready, ha⟩, rfl, hnew, List.length_append⟩

/-- Settles O23: the second request starts from the clamp the first one left, and the index byte is its value. -/
theorem clampingIsIdempotentAtBounds : Obligations.ClampingIsIdempotentAtBounds := by
  intro s hrun hok hready ha
  have accepts : Accepts s := ⟨hrun, hok, hready, ha⟩
  refine ⟨fun d => ?_, fun hsteps hindex => ?_⟩
  · obtain ⟨t, ht, accepts', hcfg, hfirst, htx⟩ := accepts.request d
    obtain ⟨u, hu, -, -, hsecond, htx'⟩ := accepts'.request d
    rw [hcfg] at hsecond
    refine ⟨t, u, ht, hu, hfirst, fun hd hsum => ⟨?_, BitVec.eq_of_toNat_eq ?_⟩,
      fun hd hsum => ⟨?_, BitVec.eq_of_toNat_eq ?_⟩, htx, ?_⟩ <;> omega
  · obtain ⟨t, ht, accepts', hcfg, hfirst, -⟩ := accepts.request 5#32
    obtain ⟨u, hu, -, -, hsecond, -⟩ := accepts'.request (BitVec.ofInt 32 (-5))
    have up : (5#32).toInt = 5 := by decide
    have down : (BitVec.ofInt 32 (-5)).toInt = -5 := by decide
    have start : s.pd.volumeIndex.toNat = 118 := congrArg BitVec.toNat hindex
    have final : u.pd.volumeIndex.toNat = 115 := by
      rw [hcfg] at hsecond
      omega
    exact ⟨t, u, ht, hu, BitVec.eq_of_toNat_eq final⟩

/-- Settles O24: the frame is the command frame, of eight bytes whatever the index. -/
theorem everyAcceptedRequestSendsOneFrame : Obligations.EveryAcceptedRequestSendsOneFrame := fun _ _ hrun hready ha =>
  ⟨_, _, (pdVolumeDelta_running hrun _).trans (volumeRequest_attached hready ha _), rfl, rfl⟩

/-! ### The session -/

theorem pdBegin_notMem_operationsOf {i : Instr} (hb : i ≠ .pdBegin) (hx : i ≠ .txHsInit) (s : State) :
    .pdBegin ∉ operationsOf s i := by
  cases i <;> simp [operationsOf, turn] at hb hx ⊢

/-- Of the operations that may write readiness, only begin and reset clear it. -/
theorem operation_keeps_ready {o : Instr} {s t : State} (ho : isOperation o = true) (hr : o ≠ .envReset) (hb : o ≠ .pdBegin)
    (h : exec o s = .next t) (hready : s.pd.linkReady = true) : t.pd.linkReady = true := by
  by_cases hp : o = .pdPoll
  · subst hp
    rcases pollOperation_cases h with rfl | ⟨-, rfl⟩ | ⟨-, rfl⟩
    · exact hready
    · exact hready
    · rw [State.setLinkReady_linkReady, hready, Bool.true_or]
  · have same : StateField.linkReady.Same s t := operation_same_of_not_writes ho hr (fun
      | .beginLinkReady => hb rfl
      | .pollLinkReady => hp rfl) h
    exact Eq.trans same hready

/-- Settles O26: each operation but begin and reset keeps a ready link ready, and no other instruction runs one of the two. -/
theorem readinessIsMonotoneWithinSession : Obligations.ReadinessIsMonotoneWithinSession := by
  intro i s t hb hx hi h
  refine exec_of_operationsOf (R := fun s t => s.pd.linkReady = true → t.pd.linkReady = true) (fun _ => id)
    (fun _ _ _ hst htu => htu ∘ hst) hi (fun o ho hop hr _ _ => operation_keeps_ready hop hr ?_) h
  rintro rfl
  exact pdBegin_notMem_operationsOf hb hx s ho

/-- Settles O27, row by row: begin does the same in every session state, a request is dropped in the two that are not ready, and
a poll faults in the first and scans in the other two. -/
theorem sessionStateTransitions : Obligations.SessionStateTransitions := by
  intro s d hrun
  obtain ⟨pollFaults, pollScans⟩ := pollScansEveryByteOrFaults s hrun
  have begins : ∃ t, exec .pdBegin s = .next t ∧ t.pd.transportAttached = true ∧ t.pd.linkReady = false ∧
      t.env.tx = s.env.tx ++ [s.cfg.hsInit.toList] := ⟨_, beginAttachesSendsUnreadies s hrun, rfl, rfl, rfl⟩
  have drops (hready : s.pd.linkReady = false) : ∃ t, exec (.pdVolumeDelta d) s = .next t ∧ t.pd = s.pd ∧
      t.env.log = s.env.log ++ [.dropNotReady d.toInt] :=
    ⟨_, (pdVolumeDelta_running hrun d).trans (volumeRequest_notReady hready _), rfl, rfl⟩
  refine ⟨fun ha hready => ⟨begins, ?_, drops hready⟩, fun ha hready => ⟨?_, drops hready, begins⟩,
    fun ha hready => ⟨?_, ?_, begins⟩, ?_, ?_, ?_⟩
  · exact ⟨_, pollFaults ha, rfl, rfl⟩
  · exact ⟨_, pollScans ha, ha, by simp [hready], rfl⟩
  · exact ⟨_, pollScans ha, ha, by simp [hready], rfl⟩
  · exact ⟨_, (pdVolumeDelta_running hrun d).trans (volumeRequest_attached hready ha _), ha, hready, rfl⟩
  · exact ⟨_, rfl, rfl, rfl⟩
  · exact ⟨_, readinessQueryReturnsBit s hrun, rfl⟩
  · exact ⟨_, indexReadReturnsIndex s hrun, rfl⟩

end Sys2Proof.Machine

/-! PROOFS. The exceptions (`60_exceptions.md`): the dropped request (O22), the halted machine (O30), the one fault (O31), and the
two interrupt handlers (O14, O15). -/

namespace Sys2Proof.Machine

/-! ### The dropped request -/

/-- Two states that differ at most in the log. -/
def SameButLog (s t : State) : Prop := ∃ l, t = s.setLog l

theorem andThen_related {R : State → State → Prop} {o o' : Host.Outcome State Fault Refusal}
    {k k' : State → Host.Outcome State Fault Refusal} (ho : Related R o o')
    (hk : ∀ u v, R u v → Related R (k u) (k' v)) : Related R (andThen o k) (andThen o' k') := by
  cases ho with
  | next h => exact hk _ _ h
  | fault r => exact .fault r
  | refused r => exact .refused r

section
variable {s t : State} (hv : SameButLog s t)
include hv

/-- The poll appends its events to either log; the transport it asks for is the same. -/
theorem poll_sameButLog : Related SameButLog (exec .pdPoll s) (exec .pdPoll t) := by
  obtain ⟨l, rfl⟩ := hv
  refine whenRunning_related ⟨l, rfl⟩ rfl ?_
  cases ha : s.pd.transportAttached with
  | false =>
    rw [requireTransport_detached ha, requireTransport_detached (s := s.setLog l) ha]
    exact .next ⟨l, rfl⟩
  | true =>
    rw [requireTransport_attached ha, requireTransport_attached (s := s.setLog l) ha, rxAvail, pollLoop_all _ s rfl,
      rxAvail, pollLoop_all _ (s.setLog l) rfl]
    exact .next ⟨l ++ blobEvents s.cfg s.env.rx, rfl⟩

/-- A drop appends its event to either log; a request that is not dropped does not read the log. -/
theorem volumeDelta_sameButLog (d : BitVec 32) :
    Related SameButLog (exec (.pdVolumeDelta d) s) (exec (.pdVolumeDelta d) t) := by
  obtain ⟨l, rfl⟩ := hv
  refine whenRunning_related ⟨l, rfl⟩ rfl ?_
  cases hready : s.pd.linkReady with
  | false =>
    rw [volumeRequest_notReady hready, volumeRequest_notReady (s := s.setLog l) hready]
    exact .next ⟨l ++ [.dropNotReady (clickCount d)], rfl⟩
  | true =>
    cases ha : s.pd.transportAttached with
    | false =>
      rw [volumeRequest_detached hready ha, volumeRequest_detached (s := s.setLog l) hready ha]
      exact .next ⟨l, rfl⟩
    | true =>
      rw [volumeRequest_attached hready ha, volumeRequest_attached (s := s.setLog l) hready ha]
      exact .next ⟨l, rfl⟩

/-- No operation reads the log: from states that differ in it alone, the states after differ in it alone. -/
theorem operation_sameButLog {o : Instr} (ho : isOperation o = true) : Related SameButLog (exec o s) (exec o t) := by
  cases o with
  | pdPoll => exact poll_sameButLog hv
  | pdVolumeDelta d => exact volumeDelta_sameButLog hv d
  | envReset => obtain ⟨l, rfl⟩ := hv; exact .next ⟨[], rfl⟩
  | qdPhaseEdge _ | qdButtonEdge _ | qdDrain | qdReadButton | pdBegin | pdIsReady | pdReadIndex | envRxArrive _ =>
    obtain ⟨l, rfl⟩ := hv
    exact whenRunning_related ⟨l, rfl⟩ rfl (.next ⟨l, rfl⟩)
  | _ => cases ho

theorem exec_sameButLog (i : Instr) : Related SameButLog (exec i s) (exec i t) := by
  cases i with
  | tt0000 | tt0001 | tt0010 | tt0011 | tt0100 | tt0101 | tt0110 | tt0111
  | tt1000 | tt1001 | tt1010 | tt1011 | tt1100 | tt1101 | tt1110 | tt1111 =>
    exact andThen_related (operation_sameButLog (o := .qdPhaseEdge _) hv rfl) fun _ _ huv =>
      operation_sameButLog (o := .qdPhaseEdge _) huv rfl
  | rxReadyMarker | rxBlobMarker | rxOther _ =>
    obtain ⟨l, rfl⟩ := hv
    exact andThen_related (operation_sameButLog (o := .envRxArrive _) ⟨l, rfl⟩ rfl) fun _ _ => poll_sameButLog
  | txHsInit => exact operation_sameButLog (o := .pdBegin) hv rfl
  | txVolumeCmd x =>
    refine andThen_related (operation_sameButLog (o := .pdReadIndex) hv rfl) fun u v huv => ?_
    -- The caller computes its operand from the results, which are the same in both states.
    have request := volumeDelta_sameButLog huv (clicksTo x u.returns)
    obtain ⟨l, rfl⟩ := huv
    exact request
  | _ => exact operation_sameButLog hv rfl

theorem execAll_sameButLog {is : List Instr} {u : State} (h : execAll is s = .next u) :
    ∃ v, execAll is t = .next v ∧ SameButLog u v := by
  induction is generalizing s t with
  | nil => cases h; exact ⟨t, rfl, hv⟩
  | cons i is ih =>
    obtain ⟨s', hs⟩ := everyInstructionCompletes i s
    obtain ⟨t', ht, hv'⟩ := (exec_sameButLog hv i).exists_next hs
    rw [execAll_cons hs] at h
    rw [execAll_cons ht]
    exact ih hv' h

end

/-- Settles O22, by noninterference: a drop writes the log alone, and no instruction reads the log. -/
theorem notReadyRequestIsLoggedDrop : Obligations.NotReadyRequestIsLoggedDrop := by
  intro s d hrun hready
  refine ⟨logEvent (.dropNotReady d.toInt) s, (pdVolumeDelta_running hrun d).trans (volumeRequest_notReady hready _),
    rfl, rfl, rfl, hrun, rfl, fun is u h => ?_⟩
  obtain ⟨_, hexec, l, rfl⟩ := execAll_sameButLog (t := logEvent (.dropNotReady d.toInt) s) ⟨_, rfl⟩ h
  exact ⟨_, hexec, rfl, rfl, rfl, rfl, rfl, rfl⟩

/-! ### The halted machine -/

/-- Settles O30: the poll's precondition raises, the halt check ignores, reset restores, and the three operations are no writers
of the fault. -/
theorem haltedMachineIgnoresAllButReset : Obligations.HaltedMachineIgnoresAllButReset := by
  intro s
  refine ⟨pollOperation_detached, fun halted => ⟨fun is hreset => execAll_halted hreset halted, _, rfl, rfl⟩,
    fun i hi => ?_⟩
  obtain ⟨isOp, noReset, noWriter⟩ : isOperation i = true ∧ i ≠ .envReset ∧ ¬ Writes i .fault := by
    simp only [List.mem_cons, List.not_mem_nil, or_false] at hi
    rcases hi with rfl | rfl | rfl <;> exact ⟨rfl, nofun, nofun⟩
  obtain ⟨t, h⟩ := everyInstructionCompletes i s
  have same : StateField.fault.Same s t := operation_same_of_not_writes isOp noReset noWriter h
  exact ⟨t, h, same⟩

/-! ### The one fault -/

section
variable {s t : State} (hrun : s.env.fault = none) (hfault : t.env.fault ≠ none)
include hrun hfault

/-- A poll that raises the fault has no transport and changes nothing else (`60_exceptions.md` R110, R130). -/
theorem pollOperation_raises (h : pollOperation s = .next t) :
    s.pd.transportAttached = false ∧ t = s.setFault (some .transportUnavailable) := by
  rcases pollOperation_cases h with rfl | raised | ⟨-, rfl⟩
  · exact absurd hrun hfault
  · exact raised
  · exact absurd hrun hfault

/-- A request that raises the fault is made while ready without a transport, and changes nothing else (`60_exceptions.md` R110,
R130). -/
theorem volumeRequest_raises {d : Int} (h : volumeRequest d s = .next t) :
    s.pd.linkReady = true ∧ s.pd.transportAttached = false ∧ t = s.setFault (some .transportUnavailable) := by
  rcases volumeRequest_cases h with ⟨-, rfl⟩ | raised | ⟨-, -, rfl⟩
  · exact absurd hrun hfault
  · exact raised
  · exact absurd hrun hfault

/-- An instruction that raises the fault runs a poll or a request: reset clears it, and no other operation writes it. -/
theorem poll_or_request_of_raises {i : Instr} (h : exec i s = .next t) :
    .pdPoll ∈ operationsOf s i ∨ ∃ d, .pdVolumeDelta d ∈ operationsOf s i := by
  by_cases hi : i = .envReset
  · subst hi; cases h; exact absurd rfl hfault
  by_contra! ⟨hpoll, hvolume⟩
  have same : StateField.fault.Same s t := exec_same_of_not_writes hi h fun
    | _, .pollFault => hpoll
    | _, .volumeFault d => hvolume d
  exact hfault (Eq.trans same hrun)

end

/-- Settles O31: only a poll or a request raises the fault; in an inbound byte row the byte arrives before the poll, in the
outbound command row the index is read before the request, and no other instruction runs either. -/
theorem faultsArePreciseAndOnlyUnattached : Obligations.FaultsArePreciseAndOnlyUnattached := by
  intro i s t hrun h hfault
  cases i with
  | pdPoll =>
    obtain ⟨ha, rfl⟩ := pollOperation_raises hrun hfault h
    exact ⟨ha, .inl (by simp [operationsOf]), fun _ _ => rfl, by simp [operationsOf], by simp [operationsOf]⟩
  | pdVolumeDelta d =>
    obtain ⟨hready, ha, rfl⟩ := volumeRequest_raises hrun hfault ((pdVolumeDelta_running hrun d).symm.trans h)
    exact ⟨ha, .inr hready, fun _ _ => rfl, by simp [operationsOf], by simp [operationsOf]⟩
  | rxReadyMarker | rxBlobMarker | rxOther _ =>
    obtain ⟨ha, rfl⟩ := pollOperation_raises (s := s.setRx (s.env.rx ++ [_])) hrun hfault ((feed_running hrun _).symm.trans h)
    refine ⟨ha, .inl (by simp [operationsOf]), by simp [operationsOf], fun b hb => ?_, by simp [operationsOf]⟩
    obtain rfl : b = _ := by simpa [operationsOf] using hb
    rfl
  | txVolumeCmd x =>
    obtain ⟨hready, ha, rfl⟩ := volumeRequest_raises (s := returnValue _ s) hrun hfault
      ((execTxVolumeCmd_running hrun x).symm.trans h)
    exact ⟨ha, .inr hready, by simp [operationsOf], by simp [operationsOf], fun _ => rfl⟩
  | _ =>
    have writer := poll_or_request_of_raises hrun hfault h
    simp [operationsOf, turn] at writer

/-! ### The two interrupt handlers -/

/-- The button edge on a running machine, field by field (`40_quadrature_decoder.md` R66). -/
theorem buttonEdge_running {s : State} (h : s.env.fault = none) (l : Bool) :
    exec (.qdButtonEdge l) s = .next { s with
      qd := { s.qd with buttonState := !l }
      env := { s.env with pins := { s.env.pins with btn := l } } } := whenRunning_running h _

/-- Settles O14: on a running machine the handlers write different registers and pins, and a halted machine runs neither. -/
theorem handlersCommute : Obligations.HandlersCommute := by
  intro s p l
  by_cases hrun : s.env.fault = none
  · rw [execAll_cons (i := .qdPhaseEdge p) (phaseEdge_running hrun p), execAll_cons (buttonEdge_running hrun l),
      execAll_singleton, execAll_singleton]
    refine (buttonEdge_running (by exact hrun) l).trans (Eq.trans ?_ (phaseEdge_running (by exact hrun) p).symm)
    rfl
  · rw [execAll_halted (by simp) hrun, execAll_halted (by simp) hrun]

/-- Settles O15: the complement counts 0, and the second invocation samples the state the first has stored. -/
theorem bothPhasesAtOnceCountZero : Obligations.BothPhasesAtOnceCountZero := by
  intro s hrun _ hacc
  obtain ⟨t, ht, htq⟩ := execAll_turn hrun [s.qd.previousState ^^^ 0b11#2]
  obtain ⟨u, hu, huq⟩ := execAll_turn hrun [s.qd.previousState ^^^ 0b11#2, s.qd.previousState ^^^ 0b11#2]
  have range : AccInRange s.cfg (s.qd.afterSamples s.cfg.accWidth [s.qd.previousState ^^^ 0b11#2]).accumulatedDelta :=
    accInRange_saturatedFold hacc _ _
  have again : u.qd = t.qd := by
    rw [huq, htq]
    exact (Qd.afterSamples_append _ _ [_] [_]).trans (Qd.afterSamples_sameState range)
  refine ⟨t, u, ht, hu, again.symm, ?_, by rw [htq]; rfl⟩
  rw [htq]
  exact saturatedFold_cons_of_step_zero hacc (printedTable_complement _) []

end Sys2Proof.Machine

/-! PROOFS. Reset (`70_reset_and_hazards.md`): the reset values, in a halted machine too (O29), and the first edge after a reset
(O16). -/

namespace Sys2Proof.Machine

/-- Reset has one effect on every machine: it makes no halt check (`70_reset_and_hazards.md` R135). -/
@[simp] theorem exec_envReset (s : State) : exec .envReset s = .next (powerOn s) := rfl

/-- Settles O29: the power-on state field by field, and the halt check of every other instruction. -/
theorem resetRestoresEveryField : Obligations.ResetRestoresEveryField := fun s =>
  ⟨⟨_, exec_envReset s, rfl, rfl, rfl, rfl, rfl, rfl, rfl⟩, fun halted _ hi => exec_halted hi halted⟩

/-- A wrong earlier pin state miscounts one sample by at most 2 (`70_reset_and_hazards.md` R139). -/
theorem printedTable_sub_mem (p q c : PinState) :
    -2 ≤ printedTable p c - printedTable q c ∧ printedTable p c - printedTable q c ≤ 2 := by
  have := printedTable_mem p c
  have := printedTable_mem q c
  omega

/-- Settles O16: the power-on state is running, so the edge counts from PREV_RESET, and one step from 0 is not saturated. -/
theorem firstEdgeJudgedFromResetState : Obligations.FirstEdgeJudgedFromResetState := by
  intro s p q hc
  have edge := phaseEdge_running (s := powerOn s) rfl p
  have run : execAll [.envReset, .qdPhaseEdge p] s = phaseEdge p (powerOn s) := by
    rw [execAll_cons (exec_envReset s), execAll_singleton]
    rfl
  refine ⟨_, run.trans edge, ?_, printedTable_sub_mem s.cfg.prevReset q p⟩
  exact congrArg (Qd.mk p · false) (sat_printedTable hc s.cfg.prevReset p)

end Sys2Proof.Machine

/-! PROOFS. The choices of the model: the pins hold the sampled levels (O4), and words written out from the spec's encodings decode
to their instructions (O43). -/

namespace Sys2Proof.Machine

/-! ### The pins -/

/-- Settles O4: each handler drives the pins of its own source alone, and reset restores no pin, trace word or result. -/
theorem sampledLevelsAreThePins : Obligations.SampledLevelsAreThePins := fun s p level hrun =>
  ⟨⟨_, phaseEdge_running hrun p, rfl⟩, ⟨_, buttonEdge_running hrun level, rfl⟩, ⟨_, exec_envReset s, rfl, rfl, rfl⟩⟩

/-! ### Words of the table -/

/-- A number of the table that is numbered as the word of a well-formed instruction decodes to it. -/
theorem decodeTableWord_of_encode {n w : Nat} {i : Instr} (wellFormed : i.wellFormed Config.hardware = true)
    (encoded : TableWord.ofBits n w = encode Config.hardware i) : decodeTableWord n w = some i := by
  rw [decodeTableWord, encoded]
  exact decode_encode wellFormed

/-- Settles O43: the decoded words are their instructions' encodings, whatever values the configuration leaves free, and the
last word has the reserved selector 0x9. -/
theorem specWordsDecode : Obligations.SpecWordsDecode := by
  have reserved : decodeTableWord 40 0x0900000000 = none := decodeTrace_reserved (op := 0x9#4) (by decide) 0#32
  refine ⟨?_, ?_, ?_, ?_, ?_, ?_, ?_, ?_, reserved⟩
  all_goals exact decodeTableWord_of_encode rfl rfl

end Sys2Proof.Machine
